-- ==== Sys2Proof/Word.lean ====
section
/-! DEFINITION. The plain words of the model: bytes, times and the numbers of lanes and slots. -/

namespace Sys2Proof

/-- One byte, on the host link, on a lane or in content memory. -/
abbrev Byte := BitVec 8

/-- Internal time in microseconds since the last part reset (R85, R111; log entry 3). -/
abbrev Time := Nat

/-- A lane number, 0 to 5. -/
abbrev LaneIx := Fin 6

/-- A transfer slot number, 0 to 11 (R85). -/
abbrev SlotIx := Fin 12

end Sys2Proof
end

