-- ==== Sys2Proof/Syntax.lean ====
section
/-! DEFINITION. The commands of the block: one constructor for each row of spec/opcode_table.json. -/

namespace Sys2Proof

/-- The levels of the two rate strap pins (R143). -/
structure Straps where
  strap1 : Bool
  strap0 : Bool
deriving DecidableEq, Repr

/-- The commands: outside events, timer expiries and completion steps of the part.
A request's own fields are not operands here: they came in the request's frame and are held by the request processor
(R148, log entry 5). `at` is the internal time at which a lane event falls. -/
inductive Instr where
  /-- POWER_ON (R153), with the strap levels sampled. -/
  | powerOn (straps : Straps)
  /-- RESET_PIN_ASSERT (R143). -/
  | resetPinAssert
  /-- RESET_PIN_RELEASE (R153), with the strap levels sampled. -/
  | resetPinRelease (straps : Straps)
  /-- RESET_PART_TAKES_EFFECT (R149, R156), with the strap levels sampled. -/
  | resetPartTakesEffect (straps : Straps)
  /-- HOST_FRAME_START (R144): a byte 0xA7 while HUNTING. -/
  | hostFrameStart
  /-- HOST_FRAME_END (R145): the bytes of the frame after its start byte. -/
  | hostFrameEnd (bytes : List Byte)
  /-- HOST_FRAME_ABORT (R144): the bytes taken so far, by a bad length or a framing error. -/
  | hostFrameAbort (received : List Byte)
  /-- HOST_FRAME_TIMEOUT (R144): the bytes taken so far. -/
  | hostFrameTimeout (received : List Byte)
  /-- HOST_LINK_BREAK (R147). -/
  | hostLinkBreak
  /-- HOST_BREAK_END (R147). -/
  | hostBreakEnd
  /-- REQUEST_TAKE (R148). -/
  | requestTake
  /-- TRANSMIT_START (R150). -/
  | transmitStart
  /-- TRANSMIT_END (R150). -/
  | transmitEnd
  /-- IDENTIFY (R155). -/
  | identify
  /-- RESET_PART (R156). -/
  | resetPart
  /-- LOAD_OPEN (R5 to R7). -/
  | loadOpen
  /-- LOAD_DATA (R8). -/
  | loadData
  /-- LOAD_CLOSE (R9, R10, R27). -/
  | loadClose
  /-- DISCARD (R12, R37). -/
  | discard
  /-- PUBLISH_FARE_IMAGE (R13, R14). -/
  | publishFareImage
  /-- PUBLISH_DELTA (R13, R15). -/
  | publishDelta
  /-- PUBLISH_BASE (R13, R16, R17). -/
  | publishBase
  /-- MERGE (R30, R31). -/
  | merge
  /-- MERGE_PROGRESS (R32): how many further entries the running merge writes. -/
  | mergeProgress (entries : Nat)
  /-- MERGE_COMPLETE (R35). -/
  | mergeComplete
  /-- MERGE_TOO_LARGE (R34). -/
  | mergeTooLarge
  /-- LIST_OBJECTS (R21, R158). -/
  | listObjects
  /-- EXPECT_VEHICLE (R41). -/
  | expectVehicle
  /-- SET_DEPARTURE (R42). -/
  | setDeparture
  /-- DEPART_VEHICLE (R42). -/
  | departVehicle
  /-- READ_VEHICLE (R61). -/
  | readVehicle
  /-- READ_VALIDATOR (R61). -/
  | readValidator
  /-- READ_RANKING (R84). -/
  | readRanking
  /-- CLEAR_FLAGS (R83). -/
  | clearFlags
  /-- SET_LANE (R160). -/
  | setLane
  /-- SWITCH_LANE_ON (R142). -/
  | switchLaneOn
  /-- SWITCH_LANE_OFF (R141). -/
  | switchLaneOff
  /-- READ_LANE (R161). -/
  | readLane
  /-- RESET_LANE (R138). -/
  | resetLane
  /-- WAKE_LANE (R135). -/
  | wakeLane
  /-- SET_POLICY (R162). -/
  | setPolicy
  /-- SET_TIME (R64). -/
  | setTime
  /-- SCAN_NOW (R66). -/
  | scanNow
  /-- READ_SLOTS (R109). -/
  | readSlots
  /-- YARD_CLOCK_TICK (R63). -/
  | yardClockTick
  /-- SILENCE_LIMIT_REACHED (R44), for the vehicle at a vehicle-table index. -/
  | silenceLimitReached (vehicle : Nat)
  /-- SCAN_PERIOD_EXPIRY (R65). -/
  | scanPeriodExpiry
  /-- SCAN_ENTRY_TURN (R70), the turn of the validator entry at a roster index. -/
  | scanEntryTurn (entry : Nat)
  /-- SCAN_COMPLETE (R81). -/
  | scanComplete
  /-- DISPATCH_WALK (R87). -/
  | dispatchWalk
  /-- LANE_PREAMBLE_END (R113). -/
  | lanePreambleEnd (lane : LaneIx)
  /-- ROUND_END (R114), with the bytes so far of a frame that the round's end finds in progress. -/
  | roundEnd (lane : LaneIx) (cutShort : Nat)
  /-- BEACON_END (R119). -/
  | beaconEnd (lane : LaneIx)
  /-- WINDOW_CLOSE (R123). -/
  | windowClose (lane : LaneIx)
  /-- FETCH_TIME_REACHED (R94). -/
  | fetchTimeReached (slot : SlotIx)
  /-- STATE_SEND_END (R122). -/
  | stateSendEnd (lane : LaneIx)
  /-- LANE_FRAME_RECEIVED (R120): the whole frame, sync byte to CRC. -/
  | laneFrameReceived (lane : LaneIx) (bytes : List Byte) (at_ : Time)
  /-- LANE_FRAME_IDLE_END (R112): how many bytes of the frame had come. -/
  | laneFrameIdleEnd (lane : LaneIx) (received : Nat) (at_ : Time)
  /-- REPLY_TIMEOUT (R126). -/
  | replyTimeout (lane : LaneIx)
  /-- TRANSACTION_BUDGET_END (R126): how many bytes of the reply had come. -/
  | transactionBudgetEnd (lane : LaneIx) (received : Nat)
  /-- QUIET_DELAY_EXPIRY (R129). -/
  | quietDelayExpiry (lane : LaneIx)
  /-- QUIET_MAXIMUM_EXPIRY (R132). -/
  | quietMaximumExpiry (lane : LaneIx)
  /-- PRESENCE_ASSERT (R136). -/
  | presenceAssert (lane : LaneIx)
  /-- PRESENCE_DEASSERT (R136). -/
  | presenceDeassert (lane : LaneIx)
  /-- LANE_BREAK_RECEIVED (R140): how many bytes of a frame the break ended, 0 outside a frame. -/
  | laneBreakReceived (lane : LaneIx) (received : Nat) (at_ : Time)
  /-- LANE_BREAK_END (R139). -/
  | laneBreakEnd (lane : LaneIx)
  /-- LANE_FRAME_START (R166): a sync byte while no frame is in progress. -/
  | laneFrameStart (lane : LaneIx) (at_ : Time)
  /-- LANE_FRAME_TOO_LONG (R166): the nine bytes up to the length field. -/
  | laneFrameTooLong (lane : LaneIx) (bytes : List Byte) (at_ : Time)
deriving DecidableEq, Repr

end Sys2Proof
end

