-- ==== Sys2Proof/Decode.lean ====
section
/-! DEFINITION. Decoding of table words: no row of spec/opcode_table.json gives its command any bits. -/

namespace Sys2Proof

/-- The command a table word spells: none, since the commands of this block are events and requests and the table gives
no row a word (spec/98_reader.md counts 0 rows with fixed bits). -/
def decodeTableWord (_nbits _w : Nat) : Option Instr := none

end Sys2Proof
end

