-- ==== Sys2Proof/Machine/Bytes.lean ====
section
/-! DEFINITION. Byte order (least significant byte first, 00_scope and chapter 10) and rounding up. -/

namespace Sys2Proof.Machine

/-- `v` as `n` bytes, least significant first; what does not fit is dropped. -/
def leBytes : Nat → Nat → List Byte
  | 0, _ => []
  | n + 1, v => BitVec.ofNat 8 v :: leBytes n (v / 256)

/-- The number that bytes, least significant first, stand for. -/
def leNat : List Byte → Nat
  | [] => 0
  | b :: bs => b.toNat + 256 * leNat bs

/-- The number in `width` bytes of `bs` from `offset` on. -/
def field (bs : List Byte) (offset width : Nat) : Nat := leNat ((bs.drop offset).take width)

/-- One mark as one byte, 0 or 1 (R172). -/
def boolByte (b : Bool) : List Byte := [if b then 1 else 0]

/-- ceil(a / b) (00_scope, Conventions). -/
def ceilDiv (a b : Nat) : Nat := (a + b - 1) / b

/-- A signed number as two bytes, two's complement (R61). -/
def int16Bytes (i : Int) : List Byte := leBytes 2 (i % 65536).toNat

/-- A number that may be absent, carried as 0 when absent (chapter 10). -/
def orZero (o : Option Nat) : Nat := o.getD 0

/-- An object id or a slot number that may be absent, carried as 255 when absent (chapter 10). -/
def orNone (o : Option Nat) : Nat := o.getD 255

/-- A carried number of which 0 means absent (chapter 10). -/
def absentZero (n : Nat) : Option Nat := if n = 0 then none else some n

/-- `n` brought into a range: raised to its lower end or lowered to its upper end (R154). -/
def clampTo (lo hi n : Nat) : Nat := if n < lo then lo else if hi < n then hi else n

/-- `a + b`, saturating at 4,294,967,295 (R68, R85). -/
def addSat32 (a b : Nat) : Nat := if a + b < 4294967295 then a + b else 4294967295

end Sys2Proof.Machine
end

