-- ==== Sys2Proof/Machine/Crc.lean ====
section
/-! DEFINITION. The two checksums of chapter 10: CRC-16 of frames (R170) and CRC-32 of content objects (R171). -/

namespace Sys2Proof.Machine

/-- One shift of the CRC-16 register, polynomial x^16 + x^12 + x^5 + 1, most significant bit first (R170). -/
def crc16Shift (r : BitVec 16) : BitVec 16 :=
  if r.msb then (r <<< 1) ^^^ 0x1021#16 else r <<< 1

/-- One byte fed into the CRC-16 register (R170). -/
def crc16Byte (r : BitVec 16) (b : Byte) : BitVec 16 :=
  Nat.repeat crc16Shift 8 (r ^^^ (b.setWidth 16 <<< 8))

/-- The CRC-16 over bytes: register from 0xFFFF, no final inversion (R170). -/
def crc16 (bs : List Byte) : BitVec 16 := bs.foldl crc16Byte 0xFFFF#16

/-- One shift of the CRC-32 register in reflected form (R171). -/
def crc32Shift (r : BitVec 32) : BitVec 32 :=
  if r.getLsbD 0 then (r >>> 1) ^^^ 0xEDB88320#32 else r >>> 1

/-- One byte fed into the CRC-32 register, least significant bit first (R171). -/
def crc32Byte (r : BitVec 32) (b : Byte) : BitVec 32 :=
  Nat.repeat crc32Shift 8 (r ^^^ b.setWidth 32)

/-- The CRC-32 over bytes: register from all ones, complemented at the end (R171). -/
def crc32 (bs : List Byte) : BitVec 32 := ~~~ (bs.foldl crc32Byte 0xFFFFFFFF#32)

end Sys2Proof.Machine
end

