-- ==== Sys2Proof/Config.lean ====
section
/-! DEFINITION. The fixed capacities of the part (00_scope, R155). -/

namespace Sys2Proof.Config

/-- Blocks of content memory (R1). -/
def blocks : Nat := 4096
/-- Bytes in one block (R1). -/
def blockSize : Nat := 1024
/-- Bytes of content memory (R1). -/
def contentBytes : Nat := 4194304
/-- Entries of the object table (R2). -/
def objectEntries : Nat := 48
/-- Entries of the vehicle table (R39). -/
def vehicleEntries : Nat := 256
/-- Entries of the validator table (R40). -/
def validatorEntries : Nat := 1024
/-- Deltas the chain may hold beyond the base (R3). -/
def chainLimit : Nat := 32
/-- Places in the report queue (R151). -/
def reportPlaces : Nat := 64
/-- Pending answers of one lane (R121). -/
def answerPlaces : Nat := 4
/-- Vehicles on one acknowledge list (R116). -/
def ackPlaces : Nat := 32
/-- Vehicles of one beacon's acknowledge list and of one wake list (R116, R117). -/
def beaconPlaces : Nat := 8
/-- Largest number of entries of a base (R24). -/
def maxBaseEntries : Nat := 349523
/-- Largest declared size of a base (R5). -/
def maxBaseBytes : Nat := 3145728
/-- Largest yard count (R63), and the value at which 32-bit counts saturate (R68, R85). -/
def max32 : Nat := 4294967295
/-- Most bytes of a lane frame that is still in progress: one less than the longest (R166). -/
def partFrameBytes : Nat := 2307

end Sys2Proof.Config
end

