-- ==== Sys2Proof/Machine/State.lean ====
section
/-! DEFINITION. The state of the FD640 as plain data, its stops, and the state right after reset. -/

namespace Sys2Proof.Machine

/-! ## Content catalogue (01) and merge engine (02) -/

/-- The two content streams (01, introduction). -/
inductive Stream where
  | fare | block
deriving DecidableEq, Repr

/-- The kinds of object (R2). -/
inductive ObjKind where
  | fareImage | base | delta
deriving DecidableEq, Repr

/-- The states of an object (R2). -/
inductive ObjState where
  | loading | building | staged | published | retiring
deriving DecidableEq, Repr

/-- An object-table entry in use (R2). The object id is its key in the table, the stream follows from the kind. -/
structure ContentObject where
  kind : ObjKind
  generation : Nat
  declaredSize : Nat
  declaredCrc : BitVec 32
  received : Nat
  blocks : List Nat
  entryCount : Option Nat
  addCount : Option Nat
  state : ObjState
  refs : Nat
  effectiveTime : Option Nat
deriving DecidableEq, Repr

/-- The FARE record once a fare image is published (R3). -/
structure FareRecord where
  generation : Nat
  image : Nat
deriving DecidableEq, Repr

/-- The BLOCK record once a base is published: B, H, the published base and the chain of delta ids (R3). -/
structure BlockRecord where
  base : Nat
  head : Nat
  baseObject : Nat
  chain : List Nat
deriving DecidableEq, Repr

/-- The job record of a RUNNING merge (R29). -/
structure MergeJob where
  result : Nat
  target : Nat
  sources : List Nat
  entriesWritten : Nat
  voidRemovals : Nat
deriving DecidableEq, Repr

/-- Content memory as address and byte pairs, addresses strictly rising, no byte 0 listed (an unlisted byte reads 0). -/
abbrev Memory := List Host.Cell

/-- A table of entries by number, numbers strictly rising; a number that is not listed is an unused entry. -/
abbrev Table (α : Type) := List (Nat × α)

/-! ## Fleet roster (03) and slack scanner (04) -/

/-- The states of a vehicle (R39). -/
inductive VehicleState where
  | expected | present | asleep | unreachable | departed
deriving DecidableEq, Repr

/-- A vehicle-table entry in use (R39). -/
structure Vehicle where
  number : Nat
  lane : LaneIx
  state : VehicleState
  departure : Option Nat
  validators : List Nat
  lastHeard : Nat
  wakeAttempts : Nat
  boundSlots : Nat
deriving DecidableEq, Repr

/-- Which items are to be sent now (R75). -/
inductive Plan where
  | full | blockOnly
deriving DecidableEq, Repr

/-- The sign of the last computed slack (R78). -/
inductive Sign where
  | none | nonneg | neg
deriving DecidableEq, Repr

/-- The sticky flags of a validator (R40). -/
structure StickyFlags where
  atRisk : Bool
  negCrossed : Bool
  missed : Bool
  rejected : Bool
  ahead : Bool
deriving DecidableEq, Repr

/-- A validator-table entry in use (R40); `vehicle` is none when detached. -/
structure Validator where
  serial : Nat
  vehicle : Option Nat
  position : Nat
  heldFare : Option Nat
  heldBlock : Option Nat
  work : List Nat
  lag : Nat
  plan : Plan
  cls : Nat
  slack : Option Int
  prevSign : Sign
  flags : StickyFlags
  boundSlot : Option SlotIx
  lastHeard : Nat
deriving DecidableEq, Repr

/-- The yard clock (R63), with the moment of the next count-on. -/
structure YardClock where
  count : Nat
  unset : Bool
  nextSecond : Time
deriving DecidableEq, Repr

/-- When a crossing is reported (R78). -/
inductive CrossingMode where
  | none | falling | rising | both
deriving DecidableEq, Repr

/-- The presence modes (R136). -/
inductive PresenceMode where
  | none | edge | edgeLevel
deriving DecidableEq, Repr

/-- The inputs a scan takes from one lane (R67). -/
structure LaneInputs where
  divisor : Nat
  segmentSize : Nat
  guardMargin : Nat
  atRiskLimit : Nat
  crossing : CrossingMode
  efficiency : Nat
deriving DecidableEq, Repr

/-- A ranked entry (R79). -/
structure RankedEntry where
  index : Nat
  serial : Nat
  lane : LaneIx
  cls : Nat
  slack : Int
  plan : Plan
deriving DecidableEq, Repr

/-- What a RUNNING scan holds (R65, R67, R79). -/
structure ScanRun where
  time : Nat
  unset : Bool
  urgentLag : Nat
  inputs : Vector (Option LaneInputs) 6
  cursor : Nat
  newList : List RankedEntry
  walked : Nat
  computed : Nat
deriving DecidableEq, Repr

/-- The slack scanner (R65): `run` is none while IDLE. -/
structure Scanner where
  run : Option ScanRun
  periodEnd : Time
  ranked : List RankedEntry
  completedAt : Nat
deriving DecidableEq, Repr

/-! ## Transfer unit (05) -/

/-- The states of a bound slot (R85). -/
inductive SlotState where
  | send | await | probe
deriving DecidableEq, Repr

/-- The steps of a transfer (R85). -/
inductive SlotStep where
  | opening
  | seg (k : Nat)
  | close
  | abandon
deriving DecidableEq, Repr

/-- The conditions with which a binding ends (R107); `none` before the first end since a reset. -/
inductive EndCond where
  | none | done | refused | objectRejected | retryExhausted | superseded
  | vehicleGone | asleep | moved | laneReset | laneOff
deriving DecidableEq, Repr

/-- The fields of a bound slot (R85). `putTime` is none when no PUT has been taken in this binding (R109);
`superseded` is the abandon reason. -/
structure Binding where
  state : SlotState
  step : SlotStep
  validator : Nat
  serial : Nat
  vehicle : Nat
  lane : LaneIx
  object : Nat
  segmentSize : Nat
  segmentCount : Nat
  seqBit : Bool
  errors : Nat
  pendings : Nat
  closeAttempts : Nat
  segmentsSent : Nat
  putTime : Option Time
  fetchTime : Time
  superseded : Bool
deriving DecidableEq, Repr

/-- A slot record (R85): FREE when `binding` is none; the last end condition and its unconfirmed mark (R104, R107). -/
structure Slot where
  binding : Option Binding
  lastEnd : EndCond
  unconfirmed : Bool
deriving DecidableEq, Repr

/-! ## Lanes (06, 07) -/

/-- The states of a lane (06, introduction). -/
inductive LaneState where
  | off | starting | active | quiet | resetting
deriving DecidableEq, Repr

/-- The phase of the current round; `none` while not ACTIVE (R111, R172). -/
inductive Phase where
  | none | beacon | window | service
deriving DecidableEq, Repr

/-- The sixteen lane parameters, in the order of R160. -/
structure LaneParams where
  divisor : Nat
  roundLength : Nat
  announceWindow : Nat
  preamble : Nat
  replyTimeout : Nat
  turnaround : Nat
  slotsPerLane : Nat
  segmentSize : Nat
  guardMargin : Nat
  atRiskLimit : Nat
  crossing : CrossingMode
  initialEfficiency : Nat
  quietDelay : Nat
  quietMaximum : Nat
  burstRounds : Nat
  presence : PresenceMode
deriving DecidableEq, Repr

/-- The defaults of R160. -/
def LaneParams.defaults : LaneParams :=
  ⟨24, 200, 20, 8, 40, 30, 4, 256, 60, 120, .falling, 800, 5000, 30, 5, .none⟩

/-- A pending answer of the answer queue (R121). -/
structure Answer where
  vehicle : Nat
  position : Nat
  seqBit : Bool
deriving DecidableEq, Repr

/-- The quiet-delay timer (R129), with the end of a RUNNING one. -/
inductive QuietTimer where
  | stopped
  | running (until_ : Time)
  | expired
deriving DecidableEq, Repr

/-- What a transaction belongs to: a STATE answer, the roll-call, a slot's binding (`countOnly` once the retirement of its
object was taken in flight, R103), or a binding that has ended (R106). -/
inductive Owner where
  | answer
  | rollCall
  | slot (k : SlotIx) (countOnly : Bool)
  | ended
deriving DecidableEq, Repr

/-- The request kinds by what they expect (R91). -/
inductive Exchange where
  | state | put | fetchOpen | fetchSegment | fetchClose | probe
deriving DecidableEq, Repr

/-- The transaction in flight (R126). -/
structure Transaction where
  owner : Owner
  exchange : Exchange
  vehicle : Nat
  position : Nat
  seqBit : Bool
  requestBytes : Nat
  sentAt : Time
  sendEnd : Time
  replyBy : Time
  budgetEnd : Time
deriving DecidableEq, Repr

/-- A frame the lane sends (R166): its kind code, header fields and body. -/
structure LaneFrame where
  kind : Nat
  lane : LaneIx
  vehicle : Nat
  position : Nat
  seqBit : Bool
  body : List Byte
deriving DecidableEq, Repr

/-- A relay's frame in progress on a lane: when its sync byte came, how many of its bytes came before the service phase opened, and on a
lane that fell QUIET how many had come in the service phase before (R112, R119, R128, R131). -/
structure Reception where
  start : Time
  windowBytes : Nat
  owed : Nat
deriving DecidableEq, Repr

/-- A lane record (R111 and chapter 07). `rate`, `inLength` and `inWindow` are the round inputs; `deadline` is the end of
the preamble, beacon, window or break in progress; `sent` is the frame the lane last began to send; `leftQuiet` is when a lane that is
STARTING left QUIET for something other than a frame (R132). -/
structure Lane where
  state : LaneState
  phase : Phase
  params : LaneParams
  efficiency : Nat
  useful : Nat
  spent : Nat
  roundStart : Time
  rate : Nat
  inLength : Nat
  inWindow : Nat
  deadline : Time
  doublingDue : Bool
  windowByArrival : Bool
  answers : List Answer
  acks : List Nat
  wake : List Nat
  rollCallMade : Bool
  lastServed : SlotIx
  transaction : Option Transaction
  reception : Option Reception
  sent : Option LaneFrame
  arrival : Bool
  lineAsserted : Bool
  quietTimer : QuietTimer
  frameWake : Bool
  quietMaxEnd : Option Time
  leftQuiet : Option Time
  burst : Nat
  fault : Bool
  breaks : Nat
  powerSave : Bool
deriving DecidableEq, Repr

/-- A lane that is OFF, with the presence line at a level (R141, R142; log entry 28). -/
def Lane.off (line : Bool) : Lane where
  state := .off
  phase := .none
  params := LaneParams.defaults
  efficiency := 0
  useful := 0
  spent := 0
  roundStart := 0
  rate := 38400
  inLength := 200
  inWindow := 20
  deadline := 0
  doublingDue := false
  windowByArrival := false
  answers := []
  acks := []
  wake := []
  rollCallMade := false
  lastServed := 11
  transaction := none
  reception := none
  sent := none
  arrival := false
  lineAsserted := line
  quietTimer := .stopped
  frameWake := false
  quietMaxEnd := none
  leftQuiet := none
  burst := 0
  fault := false
  breaks := 0
  powerSave := false

/-! ## Policy and host link (08, 09) -/

/-- The nine policy values, in the order of R162. -/
structure Policy where
  retryLimit : Nat
  pendingLimit : Nat
  urgentLag : Nat
  scanPeriod : Nat
  silenceLimit : Nat
  wakeMaximum : Nat
  relayDepth : Nat
  reportThreshold : Nat
  depotNumber : Nat
deriving DecidableEq, Repr

/-- The defaults of R162. -/
def Policy.defaults : Policy := ⟨5, 6, 2, 5, 120, 30, 1, 1, 0⟩

/-- Why the part started (R153). -/
inductive StartCause where
  | power | pin | request
deriving DecidableEq, Repr

/-- Why a vehicle departed (R46). -/
inductive DepartCause where
  | silence | request | laneOff
deriving DecidableEq, Repr

/-- Why a merge failed (R38). -/
inductive MergeFailure where
  | superseded | discarded | tooLarge
deriving DecidableEq, Repr

/-- Why a host frame was bad (R144, R145). -/
inductive LinkCause where
  | length | framing | timeout | crc
deriving DecidableEq, Repr

/-- The two roster tables (R49). -/
inductive RosterTable where
  | vehicle | validator
deriving DecidableEq, Repr

/-- The body of SLACK_NEGATIVE and SLACK_RECOVERED (R78). -/
structure SlackReport where
  serial : Nat
  vehicle : Nat
  lane : LaneIx
  slack : Int
  plan : Plan
  lag : Nat
  departure : Option Nat
deriving DecidableEq, Repr

/-- The body of TRANSFER_ENDED (R107). -/
structure TransferReport where
  slot : SlotIx
  index : Nat
  serial : Nat
  vehicle : Nat
  lane : LaneIx
  object : Nat
  kind : ObjKind
  generation : Nat
  condition : EndCond
  unconfirmed : Bool
  segmentsSent : Nat
  closeAttempts : Nat
deriving DecidableEq, Repr

/-- The reports, in the order of R164, with the fields of their bodies. -/
inductive ReportBody where
  | started (cause : StartCause) (rate : Nat)
  | laneFault (lane : LaneIx) (state : LaneState) (breaks : Nat)
  | missedDeparture (vehicle : Nat) (behind : List (Nat × Nat))
  | slackNegative (r : SlackReport)
  | transferEnded (r : TransferReport)
  | vehicleUnreachable (vehicle : Nat) (lane : LaneIx) (left : VehicleState) (attempts : Nat)
  | rosterFull (table : RosterTable) (vehicle serial : Nat)
  | genAhead (serial : Nat) (stream : Stream) (held published : Nat)
  | mergeFailed (result target : Nat) (reason : MergeFailure) (written : Nat)
  | linkOverrun (kind tag : Byte)
  | atRisk (r : SlackReport) (cls : Nat)
  | slackRecovered (r : SlackReport)
  | vehicleArrived (vehicle : Nat) (lane : LaneIx) (validators : Nat)
  | vehicleGone (vehicle : Nat) (lane : LaneIx) (left : VehicleState) (cause : DepartCause)
  | mergeDone (result generation entries size voids : Nat)
  | linkError (cause : LinkCause) (length : Nat)
  | validatorCurrent (serial vehicle : Nat) (heldFare heldBlock : Option Nat)
  | objectRetired (object : Nat) (kind : ObjKind) (generation : Nat)
  | scanDone (walked computed ranked class0 class1 class2 blockOnly : Nat)
deriving DecidableEq, Repr

/-- A queued report: its body, which fixes kind and level, and the yard count at submission (R151). -/
structure Report where
  body : ReportBody
  yard : Nat
deriving DecidableEq, Repr

/-- The reply status codes (R154). -/
inductive Status where
  | ok | clamped | busy | badKind | badLength | badField | noSpace | notFound
  | wrongState | laneOff | badCheck | badContent | badGeneration | chainFull
deriving DecidableEq, Repr

/-- A reply: its kind code, tag, status and the fields after the status byte (R165). -/
structure Reply where
  kind : Nat
  tag : Byte
  status : Status
  fields : List Byte
deriving DecidableEq, Repr

/-- A frame the transmitter sends (R150, R152): a reply, or a report with its lost-before flag. -/
inductive OutFrame where
  | reply (r : Reply)
  | report (r : Report) (lostBefore : Bool)
deriving DecidableEq, Repr

/-- A request as a receive buffer holds it (R145). -/
structure RawRequest where
  kind : Byte
  tag : Byte
  body : List Byte
deriving DecidableEq, Repr

/-- The sixteen parameter fields of SET_LANE as carried (R160). -/
structure RawLaneFields where
  divisor : Nat
  roundLength : Nat
  announceWindow : Nat
  preamble : Nat
  replyTimeout : Nat
  turnaround : Nat
  slotsPerLane : Nat
  segmentSize : Nat
  guardMargin : Nat
  atRiskLimit : Nat
  crossing : Nat
  initialEfficiency : Nat
  quietDelay : Nat
  quietMaximum : Nat
  burstRounds : Nat
  presence : Nat
deriving DecidableEq, Repr

/-- A request whose kind and body length have been checked, with its fields as carried (R148, R157 to R163). -/
inductive Request where
  | identify
  | resetPart
  | loadOpen (stream kind generation size crc effective : Nat)
  | loadData (object offset : Nat) (data : List Byte)
  | loadClose (object : Nat)
  | discard (object : Nat)
  | publish (stream kind : Nat)
  | merge
  | listObjects
  | expectVehicle (vehicle lane departure : Nat)
  | setDeparture (vehicle departure : Nat)
  | departVehicle (vehicle : Nat)
  | readVehicle (vehicle : Nat)
  | readValidator (serial : Nat)
  | readRanking (start count : Nat)
  | clearFlags (serial selection : Nat)
  | setLane (lane enable mask : Nat) (fields : RawLaneFields)
  | readLane (lane : Nat)
  | resetLane (lane : Nat)
  | wakeLane (lane : Nat)
  | setPolicy (mask : Nat) (fields : Policy)
  | setTime (time : Nat)
  | scanNow
  | readSlots
  /-- A request that the checks of kind and length refuse: the kind of its reply and the refusal (R148, log entry 6). -/
  | rejected (replyKind : Nat) (st : Status)
deriving DecidableEq, Repr

/-- The host link receiver (R144); RECEIVING names its FILLING buffer. -/
inductive Receiver where
  | hunting
  | receiving (buffer : Fin 2)
  | discarding
  | inBreak
deriving DecidableEq, Repr

/-- A receive buffer (R146). -/
inductive Buffer where
  | free
  | filling
  | waiting (r : RawRequest)
deriving DecidableEq, Repr

/-- The request processor (R148). `awaitReset` is BUSY with a RESET_PART whose reply has been placed (R149); `replySent` once
the last byte of that reply has been sent. -/
inductive Processor where
  | idle
  | busy (tag : Byte) (r : Request)
  | awaitReset (replySent : Bool)
deriving DecidableEq, Repr

/-- The host link interface (08). `order` lists the WAITING buffers, oldest first; `transmitter` is none while IDLE. -/
structure HostLink where
  straps : Straps
  receiver : Receiver
  rxOpen : Bool
  buffers : Vector Buffer 2
  order : List (Fin 2)
  processor : Processor
  replyPlace : Option Reply
  transmitter : Option OutFrame
  queue : List Report
  lostMark : Bool
deriving DecidableEq, Repr

/-! ## The whole machine -/

/-- The state of the part. -/
structure State where
  /-- Content memory (R1). -/
  content : Memory
  /-- The free-block pool (R1). -/
  pool : List Nat
  /-- The object table (R2). -/
  objects : Table ContentObject
  /-- The FARE record (R3). -/
  fare : Option FareRecord
  /-- The BLOCK record (R3). -/
  block : Option BlockRecord
  /-- The merge engine: none while IDLE (R29). -/
  merge : Option MergeJob
  /-- The vehicle table (R39). -/
  vehicles : Table Vehicle
  /-- The validator table (R40). -/
  validators : Table Validator
  /-- The roster-full mark of the vehicle table (R49). -/
  vehicleFull : Bool
  /-- The roster-full mark of the validator table (R49). -/
  validatorFull : Bool
  /-- The silence limit that the silence check applies (R44, log entry 13). -/
  silenceApplied : Nat
  /-- The yard clock (R63). -/
  clock : YardClock
  /-- The slack scanner (R65). -/
  scanner : Scanner
  /-- The twelve slots (R85). -/
  slots : Vector Slot 12
  /-- An event of R86 has come and its walks are not yet made (log entry 32). -/
  dispatchDue : Bool
  /-- The six lanes (R111). -/
  lanes : Vector Lane 6
  /-- The policy values (R162). -/
  policy : Policy
  /-- The host link interface (08). -/
  host : HostLink
  /-- The RESET pin is asserted (R143). -/
  resetPin : Bool
  /-- Internal time (log entry 3). -/
  now : Time
  /-- The commands that wait, first in, first out (log entry 1). -/
  pending : List Instr
deriving DecidableEq, Repr

/-- The stops of the model that the spec does not describe. -/
inductive Fault where
  /-- LOAD_DATA, MERGE_PROGRESS and MERGE_COMPLETE raise it when a byte of an object has no address inside the 4 MiB of
  content memory (R1). No run reaches it; safe (log entry 29). -/
  | contentAddress (object : Nat)
deriving DecidableEq, Repr

/-- Commands without a meaning. -/
inductive Refusal where
  /-- exec raises it for a command that the model does not cover; safe. -/
  | notModelled (mnemonic : String)
deriving DecidableEq, Repr

/-- What a command's meaning answers. -/
abbrev Result := Host.Outcome State Fault Refusal

/-- The host link rate the straps select, in bit/s (R143). -/
def hostRate (p : Straps) : Nat :=
  match p.strap1, p.strap0 with
  | false, false => 115200
  | false, true => 460800
  | true, false => 921600
  | true, true => 1843200

/-- The host link right after a reset, STARTED submitted (R153). -/
def HostLink.start (cause : StartCause) (straps : Straps) : HostLink where
  straps := straps
  receiver := .hunting
  rxOpen := false
  buffers := Vector.replicate 2 .free
  order := []
  processor := .idle
  replyPlace := none
  transmitter := none
  queue := [⟨.started cause (hostRate straps), 0⟩]
  lostMark := false

/-- Every block in its reset state and STARTED submitted with a cause (R22, R29, R62, R63, R65, R85, R110, R142, R153, R162);
the level of the RESET pin is as given
(R143, log entry 23), and the queue of commands is the model's own and is passed through. -/
def State.start (cause : StartCause) (straps : Straps) (pin : Bool) (pending : List Instr) : State where
  content := []
  pool := List.range Config.blocks
  objects := []
  fare := none
  block := none
  merge := none
  vehicles := []
  validators := []
  vehicleFull := false
  validatorFull := false
  silenceApplied := Policy.defaults.silenceLimit
  clock := ⟨0, true, 1000000⟩
  scanner := ⟨none, 5000000, [], 0⟩
  slots := Vector.replicate 12 ⟨none, .none, false⟩
  dispatchDue := false
  lanes := Vector.replicate 6 (Lane.off false)
  policy := Policy.defaults
  host := HostLink.start cause straps
  resetPin := pin
  now := 0
  pending := pending

/-- The machine right after power-on with both straps low (R153; log entry 7). -/
def State.reset : State := State.start .power ⟨false, false⟩ false []

end Sys2Proof.Machine
end

