-- ==== Sys2Proof/Machine/Codes.lean ====
section
/-! DEFINITION. The codes of enumerated fields (R172), the levels and bodies of reports (R164), and the bytes of the frames the
part sends (R165, R166). -/

namespace Sys2Proof.Machine

/-- The stream of a kind of object (R2). -/
def ObjKind.stream : ObjKind → Stream
  | .fareImage => .fare
  | .base => .block
  | .delta => .block

/-- Stream codes (R172). -/
def Stream.code : Stream → Nat
  | .fare => 1
  | .block => 2

/-- Kind codes (R172). -/
def ObjKind.code : ObjKind → Nat
  | .fareImage => 1
  | .base => 2
  | .delta => 3

/-- The kind of a code, none when undefined (R172). -/
def kindOfCode : Nat → Option ObjKind
  | 1 => some .fareImage
  | 2 => some .base
  | 3 => some .delta
  | _ => none

/-- Object state codes (R172). -/
def ObjState.code : ObjState → Nat
  | .loading => 1
  | .building => 2
  | .staged => 3
  | .published => 4
  | .retiring => 5

/-- Vehicle state codes (R172). -/
def VehicleState.code : VehicleState → Nat
  | .expected => 1
  | .present => 2
  | .asleep => 3
  | .unreachable => 4
  | .departed => 5

/-- Lane state codes (R172). -/
def LaneState.code : LaneState → Nat
  | .off => 0
  | .starting => 1
  | .active => 2
  | .quiet => 3
  | .resetting => 4

/-- Lane phase codes (R172). -/
def Phase.code : Phase → Nat
  | .none => 0
  | .beacon => 1
  | .window => 2
  | .service => 3

/-- Quiet-delay timer codes (R172). -/
def QuietTimer.code : QuietTimer → Nat
  | .stopped => 0
  | .running _ => 1
  | .expired => 2

/-- Crossing mode codes (R172). -/
def CrossingMode.code : CrossingMode → Nat
  | .none => 0
  | .falling => 1
  | .rising => 2
  | .both => 3

/-- The crossing mode of a code; codes above 3 are refused before (R160). -/
def crossingOfCode : Nat → CrossingMode
  | 0 => .none
  | 1 => .falling
  | 2 => .rising
  | _ => .both

/-- Presence mode codes (R172). -/
def PresenceMode.code : PresenceMode → Nat
  | .none => 0
  | .edge => 1
  | .edgeLevel => 2

/-- The presence mode of a code; codes above 2 are refused before (R160). -/
def presenceOfCode : Nat → PresenceMode
  | 0 => .none
  | 1 => .edge
  | _ => .edgeLevel

/-- Plan codes (R172). -/
def Plan.code : Plan → Nat
  | .full => 0
  | .blockOnly => 1

/-- Previous sign codes (R172). -/
def Sign.code : Sign → Nat
  | .none => 0
  | .nonneg => 1
  | .neg => 2

/-- The sticky flags as the five bits of R172. -/
def StickyFlags.code (f : StickyFlags) : Nat :=
  (if f.atRisk then 1 else 0) + (if f.negCrossed then 2 else 0) + (if f.missed then 4 else 0) +
    (if f.rejected then 8 else 0) + (if f.ahead then 16 else 0)

/-- Slot state codes of a bound slot (R172). -/
def SlotState.code : SlotState → Nat
  | .send => 1
  | .await => 2
  | .probe => 3

/-- Step codes (R172). -/
def SlotStep.code : SlotStep → Nat
  | .opening => 1
  | .seg _ => 2
  | .close => 3
  | .abandon => 4

/-- The segment index of step SEG (R109); the bytes of another step, which no rule gives, are 0 (log entry 39). -/
def SlotStep.segment : SlotStep → Nat
  | .seg k => k
  | .opening => 0
  | .close => 0
  | .abandon => 0

/-- End condition codes (R172). -/
def EndCond.code : EndCond → Nat
  | .none => 0
  | .done => 1
  | .refused => 2
  | .objectRejected => 3
  | .retryExhausted => 4
  | .superseded => 5
  | .vehicleGone => 6
  | .asleep => 7
  | .moved => 8
  | .laneReset => 9
  | .laneOff => 10

/-- Merge failure codes (R172). -/
def MergeFailure.code : MergeFailure → Nat
  | .superseded => 1
  | .discarded => 2
  | .tooLarge => 3

/-- Link error cause codes (R172). -/
def LinkCause.code : LinkCause → Nat
  | .length => 1
  | .framing => 2
  | .timeout => 3
  | .crc => 4

/-- Start cause codes (R172). -/
def StartCause.code : StartCause → Nat
  | .power => 1
  | .pin => 2
  | .request => 3

/-- Departure cause codes (R172). -/
def DepartCause.code : DepartCause → Nat
  | .silence => 1
  | .request => 2
  | .laneOff => 3

/-- Roster table codes (R172). -/
def RosterTable.code : RosterTable → Nat
  | .vehicle => 1
  | .validator => 2

/-- Status codes (R154). -/
def Status.code : Status → Nat
  | .ok => 0
  | .clamped => 1
  | .busy => 2
  | .badKind => 3
  | .badLength => 4
  | .badField => 5
  | .noSpace => 6
  | .notFound => 7
  | .wrongState => 8
  | .laneOff => 9
  | .badCheck => 10
  | .badContent => 11
  | .badGeneration => 12
  | .chainFull => 13

/-! ## Reports (R164) -/

/-- The level of a report: fixed by its kind, except for TRANSFER_ENDED (R164). -/
def ReportBody.level : ReportBody → Nat
  | .started _ _ => 3
  | .laneFault _ _ _ => 3
  | .missedDeparture _ _ => 2
  | .slackNegative _ => 2
  | .transferEnded r => if r.condition = .done then 0 else 2
  | .vehicleUnreachable _ _ _ _ => 2
  | .rosterFull _ _ _ => 2
  | .genAhead _ _ _ _ => 2
  | .mergeFailed _ _ _ _ => 2
  | .linkOverrun _ _ => 2
  | .atRisk _ _ => 1
  | .slackRecovered _ => 1
  | .vehicleArrived _ _ _ => 1
  | .vehicleGone _ _ _ _ => 1
  | .mergeDone _ _ _ _ _ => 1
  | .linkError _ _ => 1
  | .validatorCurrent _ _ _ _ => 0
  | .objectRetired _ _ _ => 0
  | .scanDone _ _ _ _ _ _ _ => 0

/-- Report kinds, numbered in the order of the table of R164 (R165). -/
def ReportBody.code : ReportBody → Nat
  | .started _ _ => 1
  | .laneFault _ _ _ => 2
  | .missedDeparture _ _ => 3
  | .slackNegative _ => 4
  | .transferEnded _ => 5
  | .vehicleUnreachable _ _ _ _ => 6
  | .rosterFull _ _ _ => 7
  | .genAhead _ _ _ _ => 8
  | .mergeFailed _ _ _ _ => 9
  | .linkOverrun _ _ => 10
  | .atRisk _ _ => 11
  | .slackRecovered _ => 12
  | .vehicleArrived _ _ _ => 13
  | .vehicleGone _ _ _ _ => 14
  | .mergeDone _ _ _ _ _ => 15
  | .linkError _ _ => 16
  | .validatorCurrent _ _ _ _ => 17
  | .objectRetired _ _ _ => 18
  | .scanDone _ _ _ _ _ _ _ => 19

/-- The fields SLACK_NEGATIVE, SLACK_RECOVERED and AT_RISK begin with, up to the plan (R164). -/
def SlackReport.head (r : SlackReport) : List Byte :=
  leBytes 4 r.serial ++ leBytes 2 r.vehicle ++ leBytes 1 r.lane ++ int16Bytes r.slack ++ leBytes 1 r.plan.code

/-- The fields they end with: BLOCK lag and departure time (R164). -/
def SlackReport.tail (r : SlackReport) : List Byte := leBytes 1 r.lag ++ leBytes 4 (orZero r.departure)

/-- The body bytes of a report (R164). -/
def ReportBody.bytes : ReportBody → List Byte
  | .started c rate => leBytes 1 c.code ++ leBytes 4 rate
  | .laneFault l st n => leBytes 1 l ++ leBytes 1 st.code ++ leBytes 2 n
  | .missedDeparture v b =>
    leBytes 2 v ++ leBytes 1 b.length ++ b.flatMap (fun p => leBytes 4 p.1 ++ leBytes 1 p.2)
  | .slackNegative r => r.head ++ r.tail
  | .transferEnded r =>
    leBytes 1 r.slot ++ leBytes 2 r.index ++ leBytes 4 r.serial ++ leBytes 2 r.vehicle ++ leBytes 1 r.lane ++
      leBytes 1 r.object ++ leBytes 1 r.kind.stream.code ++ leBytes 1 r.kind.code ++ leBytes 2 r.generation ++
      leBytes 1 r.condition.code ++ boolByte r.unconfirmed ++ leBytes 4 r.segmentsSent ++ leBytes 1 r.closeAttempts
  | .vehicleUnreachable v l st n => leBytes 2 v ++ leBytes 1 l ++ leBytes 1 st.code ++ leBytes 1 n
  | .rosterFull t v s => leBytes 1 t.code ++ leBytes 2 v ++ leBytes 4 s
  | .genAhead s st h p => leBytes 4 s ++ leBytes 1 st.code ++ leBytes 2 h ++ leBytes 2 p
  | .mergeFailed o g r n => leBytes 1 o ++ leBytes 2 g ++ leBytes 1 r.code ++ leBytes 4 n
  | .linkOverrun k t => [k, t]
  | .atRisk r c => r.head ++ leBytes 1 c ++ r.tail
  | .slackRecovered r => r.head ++ r.tail
  | .vehicleArrived v l n => leBytes 2 v ++ leBytes 1 l ++ leBytes 1 n
  | .vehicleGone v l st c => leBytes 2 v ++ leBytes 1 l ++ leBytes 1 st.code ++ leBytes 1 c.code
  | .mergeDone o g n z v => leBytes 1 o ++ leBytes 2 g ++ leBytes 4 n ++ leBytes 4 z ++ leBytes 4 v
  | .linkError c n => leBytes 1 c.code ++ leBytes 2 n
  | .validatorCurrent s v f b => leBytes 4 s ++ leBytes 2 v ++ leBytes 2 (orZero f) ++ leBytes 2 (orZero b)
  | .objectRetired o k g => leBytes 1 o ++ leBytes 1 k.stream.code ++ leBytes 1 k.code ++ leBytes 2 g
  | .scanDone w c r a b d p =>
    leBytes 2 w ++ leBytes 2 c ++ leBytes 2 r ++ leBytes 2 a ++ leBytes 2 b ++ leBytes 2 d ++ leBytes 2 p

/-! ## Frames -/

/-- A host frame: start byte, length, kind, tag, body and CRC-16 (R165). -/
def hostFrame (kind : Nat) (tag : Byte) (body : List Byte) : List Byte :=
  let covered := leBytes 2 (body.length + 2) ++ leBytes 1 kind ++ [tag] ++ body
  0xA7 :: covered ++ leBytes 2 (crc16 covered).toNat

/-- The bytes of a frame the transmitter sends (R152, R164, R165). -/
def OutFrame.bytes : OutFrame → List Byte
  | .reply r => hostFrame r.kind r.tag (leBytes 1 r.status.code ++ r.fields)
  | .report r lost =>
    hostFrame 0xFE 0
      (leBytes 1 r.body.level ++ leBytes 1 r.body.code ++ leBytes 4 r.yard ++ boolByte lost ++ r.body.bytes)

/-- The bytes of a lane frame (R166). -/
def LaneFrame.bytes (f : LaneFrame) : List Byte :=
  let covered := leBytes 1 f.kind ++ leBytes 1 f.lane ++ leBytes 2 f.vehicle ++ leBytes 1 f.position ++
    boolByte f.seqBit ++ leBytes 2 f.body.length ++ f.body
  0x5C :: covered ++ leBytes 2 (crc16 covered).toNat

end Sys2Proof.Machine
end

