-- ==== Sys2Proof/Machine/Table.lean ====
section
/-! DEFINITION. Numbered tables kept as pairs in rising order of number, and content memory over the same form (R1, R2). -/

namespace Sys2Proof.Machine

/-- The entry with number `k`, none when it is unused. -/
def look {α : Type} : Table α → Nat → Option α
  | [], _ => none
  | (i, a) :: t, k => if i = k then some a else look t k

/-- The table with entry `k` in use and holding `a`. -/
def put {α : Type} : Table α → Nat → α → Table α
  | [], k, a => [(k, a)]
  | (i, b) :: t, k, a =>
    if k < i then (k, a) :: (i, b) :: t else if k = i then (k, a) :: t else (i, b) :: put t k a

/-- The table with entry `k` unused. -/
def erase {α : Type} : Table α → Nat → Table α
  | [], _ => []
  | (i, b) :: t, k => if i = k then t else (i, b) :: erase t k

/-- Numbers strictly rising, all of them at or above `from_` and below `cap`. -/
def tableWf {α : Type} (cap : Nat) : Nat → Table α → Bool
  | _, [] => true
  | from_, (i, _) :: t => decide (from_ ≤ i) && decide (i < cap) && tableWf cap (i + 1) t

/-- The lowest unused number at or above `from_` of a table in rising order. -/
def lowestUnused {α : Type} : Nat → Table α → Nat
  | from_, [] => from_
  | from_, (i, _) :: t => if i = from_ then lowestUnused (from_ + 1) t else from_

/-- The numbers in use, rising. -/
def keys {α : Type} (t : Table α) : List Nat := t.map Prod.fst

/-- Of the candidates, the number with the smallest measure; among equal measures the first (R48, R52, R125). -/
def oldestBy {α : Type} (measure : α → Nat) : Table α → Option (Nat × α)
  | [] => none
  | (i, a) :: t =>
    match oldestBy measure t with
    | none => some (i, a)
    | some (j, b) => if measure a ≤ measure b then some (i, a) else some (j, b)

/-! ## Content memory -/

/-- What an address of content memory reads as when nothing lists it (log entry 10). -/
def unlistedByte : Byte := 0

/-- The byte at a content address. -/
def readByte (m : Memory) (a : Nat) : Byte := (look m a).getD unlistedByte

/-- Content memory with one byte written, in the canonical form. -/
def writeByte (m : Memory) (a : Nat) (b : Byte) : Memory :=
  if b = unlistedByte then erase m a else put m a b

/-- The canonical form: addresses strictly rising and inside the 4 MiB, and no byte listed that an unlisted address reads as. -/
def Memory.wf (m : Memory) : Bool :=
  tableWf Config.contentBytes 0 m && m.all (fun c => decide (c.2 ≠ unlistedByte))

end Sys2Proof.Machine
end

