-- ==== Sys2Proof/Machine/Ops.lean ====
section
/-! DEFINITION. The named operations the meanings share: access to records, submission of reports (R151), replies (R148, R149),
the free-block pool and the references on objects (R11, R19, R20), lane times (R112). -/

namespace Sys2Proof.Machine

/-! ## Access to records -/

/-- The record of a lane. -/
def State.lane (s : State) (i : LaneIx) : Lane := s.lanes.get i

/-- The state with a lane's record changed by `f`. -/
def modLane (i : LaneIx) (f : Lane → Lane) (s : State) : State :=
  { s with lanes := s.lanes.set i (f (s.lane i)) }

/-- The record of a slot. -/
def State.slot (s : State) (k : SlotIx) : Slot := s.slots.get k

/-- The state with a slot's record replaced. -/
def setSlot (k : SlotIx) (r : Slot) (s : State) : State := { s with slots := s.slots.set k r }

/-- The state with a bound slot's fields changed by `f`; a FREE slot stays as it is. -/
def modBinding (k : SlotIx) (f : Binding → Binding) (s : State) : State :=
  match (s.slot k).binding with
  | none => s
  | some b => setSlot k { s.slot k with binding := some (f b) } s

/-- The state with an object-table entry in use changed by `f`. -/
def modObject (o : Nat) (f : ContentObject → ContentObject) (s : State) : State :=
  match look s.objects o with
  | none => s
  | some r => { s with objects := put s.objects o (f r) }

/-- The state with a vehicle-table entry in use changed by `f`. -/
def modVehicle (v : Nat) (f : Vehicle → Vehicle) (s : State) : State :=
  match look s.vehicles v with
  | none => s
  | some r => { s with vehicles := put s.vehicles v (f r) }

/-- The state with a validator-table entry in use changed by `f`. -/
def modValidator (i : Nat) (f : Validator → Validator) (s : State) : State :=
  match look s.validators i with
  | none => s
  | some r => { s with validators := put s.validators i (f r) }

/-- All lane numbers, ascending. -/
def allLanes : List LaneIx := [0, 1, 2, 3, 4, 5]

/-- All slot numbers, ascending. -/
def allSlots : List SlotIx := [0, 1, 2, 3, 4, 5, 6, 7, 8, 9, 10, 11]

/-- The vehicle-table index of a vehicle number (R39: at most one entry has it). -/
def vehicleAt (s : State) (number : Nat) : Option Nat :=
  (s.vehicles.find? (fun p => p.2.number == number)).map Prod.fst

/-- The roster index of a serial (R40: at most one entry has it). -/
def validatorAt (s : State) (serial : Nat) : Option Nat :=
  (s.validators.find? (fun p => p.2.serial == serial)).map Prod.fst

/-- The number of the vehicle at a vehicle-table index, 0 when there is none. -/
def vehicleNumber (s : State) (v : Option Nat) : Nat :=
  match v.bind (look s.vehicles) with
  | none => 0
  | some r => r.number

/-- The slots bound to a lane (R87, R129). -/
def boundOn (s : State) (i : LaneIx) : Nat :=
  allSlots.countP (fun k => match (s.slot k).binding with
    | none => false
    | some b => b.lane == i)

/-- A FREE slot with the lowest number (R88). -/
def freeSlot (s : State) : Option SlotIx := allSlots.find? (fun k => (s.slot k).binding.isNone)

/-! ## Reports (R151) -/

/-- The lowest level among queued reports; 3 for an empty queue. -/
def lowestLevel (q : List Report) : Nat := q.foldr (fun r m => min r.body.level m) 3

/-- The queue without its oldest report of a level (R151). -/
def dropOldest (level : Nat) : List Report → List Report
  | [] => []
  | r :: q => if r.body.level = level then q else r :: dropOldest level q

/-- A report is submitted: stamped, then queued, dropped, or put in the place of a report of the lowest level (R151). -/
def submit (b : ReportBody) (s : State) : State :=
  if b.level < s.policy.reportThreshold then s
  else if s.host.queue.length < Config.reportPlaces then
    { s with host := { s.host with queue := s.host.queue ++ [⟨b, s.clock.count⟩] } }
  else if b.level = 3 ∧ lowestLevel s.host.queue < 3 then
    { s with host := { s.host with
        queue := dropOldest (lowestLevel s.host.queue) s.host.queue ++ [⟨b, s.clock.count⟩], lostMark := true } }
  else { s with host := { s.host with lostMark := true } }

/-- Reports submitted one after another (R151). -/
def submitAll (bs : List ReportBody) (s : State) : State := bs.foldl (fun t b => submit b t) s

/-! ## Replies (R148, R149) -/

/-- The request is completed: its reply fills the reply place and the processor becomes IDLE (R149). `code` is the kind of the
request; the reply's kind is that plus 0x80 (R165). -/
def answer (code : Nat) (tag : Byte) (st : Status) (fields : List Byte) (s : State) : State :=
  { s with host := { s.host with replyPlace := some ⟨code + 0x80, tag, st, fields⟩, processor := .idle } }

/-- A refusal: no change, and a reply that carries only its status (R148, R154). -/
def refuse (code : Nat) (tag : Byte) (st : Status) (s : State) : State := answer code tag st [] s

/-! ## Objects (R11, R19, R20) -/

/-- The free blocks number at least `n` (R1). -/
def poolHas (s : State) (n : Nat) : Bool := decide (n ≤ s.pool.length)

/-- A new object in an unused entry, with `n` blocks moved from the pool in the same step (R1, R2, log entry 9). -/
def createObject (id n : Nat) (mk : List Nat → ContentObject) (s : State) : State :=
  { s with objects := put s.objects id (mk (s.pool.take n)), pool := s.pool.drop n }

/-- The lowest unused object-table entry, none when all 48 are in use (R2). -/
def unusedObject (s : State) : Option Nat :=
  if lowestUnused 0 s.objects < Config.objectEntries then some (lowestUnused 0 s.objects) else none

/-- An object is freed: its blocks return to the pool and its entry becomes unused (R11). -/
def freeObject (o : Nat) (s : State) : State :=
  match look s.objects o with
  | none => s
  | some r => { s with objects := erase s.objects o, pool := s.pool ++ r.blocks }

/-- A RETIRING object without a reference is freed with OBJECT_RETIRED (R20). -/
def retireIfUnused (o : Nat) (s : State) : State :=
  match look s.objects o with
  | none => s
  | some r =>
    if r.state = .retiring ∧ r.refs = 0 then submit (.objectRetired o r.kind r.generation) (freeObject o s) else s

/-- One reference is taken on an object (R19). -/
def takeRef (o : Nat) (s : State) : State := modObject o (fun r => { r with refs := r.refs + 1 }) s

/-- One reference on an object is dropped, without the check of R20. -/
def releaseRef (o : Nat) (s : State) : State := modObject o (fun r => { r with refs := r.refs - 1 }) s

/-- One reference is dropped, and a RETIRING object whose count reaches 0 is freed (R19, R20). -/
def dropRef (o : Nat) (s : State) : State := retireIfUnused o (releaseRef o s)

/-- The state of the object at an id, none when the entry is unused. -/
def objectState (s : State) (o : Nat) : Option ObjState := (look s.objects o).map ContentObject.state

/-- The id of the object of a kind in a state, if there is one: for STAGED, the occupant of its staged place (R4). -/
def objectOf (s : State) (k : ObjKind) (st : ObjState) : Option Nat :=
  (s.objects.find? (fun p => p.2.kind == k && p.2.state == st)).map Prod.fst

/-- The content address of byte `n` of an object (R1), none outside its blocks or outside the 4 MiB. -/
def byteAddress (r : ContentObject) (n : Nat) : Option Nat :=
  match r.blocks[n / Config.blockSize]? with
  | none => none
  | some b => if b < Config.blocks then some (b * Config.blockSize + n % Config.blockSize) else none

/-- The byte `n` of an object (R1). -/
def objectByte (m : Memory) (r : ContentObject) (n : Nat) : Byte :=
  match byteAddress r n with
  | none => unlistedByte
  | some a => readByte m a

/-- The bytes of an object from `offset` on, `len` of them (R1). -/
def objectBytes (m : Memory) (r : ContentObject) (offset len : Nat) : List Byte :=
  (List.range len).map (fun i => objectByte m r (offset + i))

/-- Bytes written into an object from `offset` on (R1); none when one of them has no address. -/
def writeObject (r : ContentObject) : Nat → List Byte → Memory → Option Memory
  | _, [], m => some m
  | offset, b :: bs, m =>
    match byteAddress r offset with
    | none => none
    | some a => writeObject r (offset + 1) bs (writeByte m a b)

/-! ## Time (R112) -/

/-- The bit rate of a divisor (R112). -/
def laneRate (divisor : Nat) : Nat := 921600 / divisor

/-- Microseconds that `bytes` bytes take at a rate (R112), rounded up (log entry 3). -/
def sendMicros (rate bytes : Nat) : Nat := ceilDiv (bytes * 10000000) rate

/-- Microseconds that `bits` bit times take at a rate, rounded up (R139). -/
def bitMicros (rate bits : Nat) : Nat := ceilDiv (bits * 1000000) rate

/-- Whole bytes sent in a time at a rate (R112). -/
def bytesIn (rate micros : Nat) : Nat := micros * rate / 10000000

/-- Internal time moved on to a moment; it never goes back (log entry 4). -/
def advanceTo (t : Time) (s : State) : State := { s with now := max s.now t }

end Sys2Proof.Machine
end

