-- ==== Sys2Proof/Machine/Blocklist.lean ====
section
/-! DEFINITION. The contents of blocklist objects: entries, the content check of LOAD_CLOSE (R24 to R27, R168, R169) and the
blocklist state at a generation (R23, R33). -/

namespace Sys2Proof.Machine

/-- The bytes of one entry of a kind (R24, R25). -/
def entryWidth : ObjKind → Nat
  | .delta => 10
  | .base => 9
  | .fareImage => 9

/-- One blocklist entry: action code (1 for every base entry), card identifier, reason (R169). -/
structure BlockEntry where
  action : Nat
  card : Nat
  reason : Nat
deriving DecidableEq, Repr

/-- The first `n` records of `w` bytes each. -/
def splitRecords (w : Nat) : Nat → List Byte → List (List Byte)
  | 0, _ => []
  | n + 1, bs => bs.take w :: splitRecords w n (bs.drop w)

/-- An entry of a kind from its bytes (R169). -/
def blockEntry (k : ObjKind) (bs : List Byte) : BlockEntry :=
  match k with
  | .delta => ⟨field bs 0 1, field bs 1 8, field bs 9 1⟩
  | .base => ⟨1, field bs 0 8, field bs 8 1⟩
  | .fareImage => ⟨1, field bs 0 8, field bs 8 1⟩

/-- The `n` entries of an object's bytes, from byte 16 on (R169). -/
def blockEntries (k : ObjKind) (n : Nat) (bs : List Byte) : List BlockEntry :=
  (splitRecords (entryWidth k) n (bs.drop 16)).map (blockEntry k)

/-- The content fault codes (R27). -/
inductive ContentFault where
  | length | header | count | action | reason | order
deriving DecidableEq, Repr

/-- Content fault codes as carried (R172). -/
def ContentFault.code : ContentFault → Nat
  | .length => 1
  | .header => 2
  | .count => 3
  | .action => 4
  | .reason => 5
  | .order => 6

/-- The fault of one entry after an entry before it, none when it has none (R27, step 4). -/
def entryFault (before : Option Nat) (e : BlockEntry) : Option ContentFault :=
  if e.action ≠ 1 ∧ e.action ≠ 2 then some .action
  else if e.action = 1 ∧ ¬(1 ≤ e.reason ∧ e.reason ≤ 15) then some .reason
  else if e.action = 2 ∧ e.reason ≠ 0 then some .reason
  else
    match before with
    | none => none
    | some c => if c < e.card then none else some .order

/-- The first faulty entry and its position, none when there is none (R27, step 4). -/
def firstEntryFault : Nat → Option Nat → List BlockEntry → Option (ContentFault × Nat)
  | _, _, [] => none
  | i, before, e :: es =>
    match entryFault before e with
    | some f => some (f, i)
    | none => firstEntryFault (i + 1) (some e.card) es

/-- How many entries add a card (R25). -/
def addEntries (es : List BlockEntry) : Nat := es.countP (fun e => e.action == 1)

/-- The blocklist format mark (R168). -/
def formatMark : Nat := 0x5A3C0001

/-- The content check of a base or delta of a declared generation and size (R27): the first fault and its index. -/
def contentFault (k : ObjKind) (generation size : Nat) (bs : List Byte) : Option (ContentFault × Nat) :=
  let w := entryWidth k
  let n := (size - 16) / w
  let es := blockEntries k n bs
  if size < 16 ∨ (size - 16) % w ≠ 0 then some (.length, 0)
  else if field bs 0 4 ≠ formatMark ∨ field bs 4 2 ≠ k.code ∨ field bs 6 4 ≠ generation then some (.header, 0)
  else if field bs 10 4 ≠ n ∨ (k = .base ∧ field bs 14 2 ≠ 0) then some (.count, 0)
  else
    match firstEntryFault 0 none es with
    | some f => some f
    | none => if k = .delta ∧ field bs 14 2 ≠ addEntries es then some (.count, 0) else none

/-- The number of entries of a checked object (R27). -/
def entryCountOf (k : ObjKind) (size : Nat) : Nat := (size - 16) / entryWidth k

/-! ## Blocklist states (R23, R25, R33) -/

/-- A blocklist state: reason by card, cards strictly rising. -/
abbrev Blocklist := Table Nat

/-- The state a base's entries state (R23, R24). -/
def ofBase (es : List BlockEntry) : Blocklist := es.foldl (fun t e => put t e.card e.reason) []

/-- One delta entry applied: the state, and the cards of void removals so far (R25, R33). -/
def applyEntry (acc : Blocklist × List Nat) (e : BlockEntry) : Blocklist × List Nat :=
  if e.action = 1 then (put acc.1 e.card e.reason, acc.2)
  else
    match look acc.1 e.card with
    | none => (acc.1, e.card :: acc.2)
    | some _ => (erase acc.1 e.card, acc.2)

/-- A delta applied (R25). -/
def applyDelta (acc : Blocklist × List Nat) (es : List BlockEntry) : Blocklist × List Nat := es.foldl applyEntry acc

/-- The entries of a stored base or delta, by its recorded entry count (R28). -/
def storedEntries (m : Memory) (r : ContentObject) : List BlockEntry :=
  blockEntries r.kind (r.entryCount.getD 0) (objectBytes m r 0 r.declaredSize)

/-- The bytes of a base entry (R169). -/
def baseEntryBytes (p : Nat × Nat) : List Byte := leBytes 8 p.1 ++ leBytes 1 p.2

/-- The object header of a base (R168). -/
def baseHeader (generation entries : Nat) : List Byte :=
  leBytes 4 formatMark ++ leBytes 2 2 ++ leBytes 4 generation ++ leBytes 4 entries ++ leBytes 2 0

end Sys2Proof.Machine
end

