-- ==== Sys2Proof/Machine/Merge.lean ====
section
/-! DEFINITION. The merge engine (R29 to R38). -/

namespace Sys2Proof.Machine

/-- The objects of a list of ids that are in use. -/
def objectsAt (s : State) (ids : List Nat) : List ContentObject := ids.filterMap (look s.objects)

/-- The state a merge writes and the cards of its void removals (R33): the base's entries with the deltas applied in order. -/
def mergedState (s : State) (j : MergeJob) : Blocklist × List Nat :=
  match objectsAt s j.sources with
  | [] => ([], [])
  | b :: ds => ds.foldl (fun acc d => applyDelta acc (storedEntries s.content d)) (ofBase (storedEntries s.content b), [])

/-- The worst-case result size: the base's declared size and 9 bytes for each ADD of the chain, at most 3 MiB (R30). -/
def worstCaseSize (s : State) (b : BlockRecord) : Nat :=
  let base := match look s.objects b.baseObject with
    | none => 0
    | some r => r.declaredSize
  min (base + 9 * ((objectsAt s b.chain).map (fun r => r.addCount.getD 0)).sum) Config.maxBaseBytes

/-- The engine drops its references without the check of R20, and becomes IDLE (R19, R35, R38). -/
def releaseSources (j : MergeJob) (s : State) : State :=
  { j.sources.foldl (fun t o => releaseRef o t) s with merge := none }

/-- Sources that are RETIRING without a reference are freed (R20, R35, R38). The order of several OBJECT_RETIRED reports is the model's: that of
the source list (log entry 12). -/
def retireSources (ids : List Nat) (s : State) : State := ids.foldl (fun t o => retireIfUnused o t) s

/-- A merge ends without a staged result: the result is freed, the references are dropped, the engine becomes IDLE and
MERGE_FAILED is submitted (R34, R36 to R38). The freeing of RETIRING sources follows it. -/
def failMerge (j : MergeJob) (reason : MergeFailure) (written : Nat) (s : State) : State :=
  submit (.mergeFailed j.result j.target reason written) (releaseSources j (freeObject j.result s))

/-- MERGE (R30, R31). -/
def startMerge (tag : Byte) (s : State) : State :=
  match s.block with
  | none => refuse 0x08 tag .wrongState s
  | some b =>
    if b.head = b.base then refuse 0x08 tag .wrongState s
    else if s.merge.isSome then refuse 0x08 tag .busy s
    else
      match objectOf s .base .staged, unusedObject s with
      | none, some id =>
        let size := worstCaseSize s b
        let n := ceilDiv size Config.blockSize
        if poolHas s n then
          let s1 := createObject id n
            (fun bl => ⟨.base, b.head, size, 0, 0, bl, none, none, .building, 0, none⟩) s
          let s2 := (b.baseObject :: b.chain).foldl (fun t o => takeRef o t) s1
          answer 0x08 tag .ok (leBytes 1 id ++ leBytes 2 b.head ++ leBytes 2 n)
            { s2 with merge := some ⟨id, b.head, b.baseObject :: b.chain, 0, 0⟩ }
        else refuse 0x08 tag .noSpace s
      | _, _ => refuse 0x08 tag .noSpace s

/-- The void removals met once the last of the first `n` entries has been written (R29, R33, log entry 25). -/
def voidsUpTo (m : Blocklist × List Nat) (n : Nat) : Nat :=
  match (m.1.take n).getLast? with
  | none => 0
  | some e => m.2.countP (fun c => decide (c ≤ e.1))

/-- MERGE_PROGRESS: the next `n` entries are written in card order (R32). Not possible, and without effect, when no merge runs or
fewer entries are left to write. -/
def execMergeProgress (n : Nat) (s : State) : Result :=
  match s.merge with
  | none => .next s
  | some j =>
    let m := mergedState s j
    match look s.objects j.result with
    | none => .next s
    | some r =>
      if 0 < n ∧ j.entriesWritten + n ≤ m.1.length ∧ j.entriesWritten + n ≤ Config.maxBaseEntries then
        match writeObject r (16 + 9 * j.entriesWritten) (((m.1.drop j.entriesWritten).take n).flatMap baseEntryBytes)
            s.content with
        | none => .fault (.contentAddress j.result)
        | some c =>
          .next { modObject j.result (fun r => { r with received := r.received + 9 * n }) s with
            content := c,
            merge := some { j with entriesWritten := j.entriesWritten + n,
                                   voidRemovals := voidsUpTo m (j.entriesWritten + n) } }
      else .next s

/-- The result object at completion, with content memory as it stands once the header is written (R35, steps 1 and 2). -/
def finishResult (j : MergeJob) (n : Nat) (m : Memory) (r : ContentObject) : ContentObject :=
  { r with declaredSize := 16 + 9 * n, declaredCrc := crc32 (objectBytes m r 0 (16 + 9 * n)), received := 16 + 9 * n,
           entryCount := some n, blocks := r.blocks.take (ceilDiv (16 + 9 * n) Config.blockSize), generation := j.target }

/-- Steps 3 to 5 of R35: the result is staged, or freed when the base place is taken; then the references, the engine and the
report. -/
def settleMerge (j : MergeJob) (n voids : Nat) (s : State) : State :=
  match objectOf s .base .staged with
  | some _ => failMerge j .superseded n s
  | none =>
    submit (.mergeDone j.result j.target n (16 + 9 * n) voids)
      (releaseSources j (modObject j.result (fun r => { r with state := .staged }) s))

/-- MERGE_COMPLETE: every entry of the target state is written; the header and CRC-32 are written, the block list is shortened, and the
result is staged or freed (R35). Not possible, and without effect, when no merge runs or entries are left to write. -/
def execMergeComplete (s : State) : Result :=
  match s.merge with
  | none => .next s
  | some j =>
    let m := mergedState s j
    let n := j.entriesWritten
    match look s.objects j.result with
    | none => .next s
    | some r =>
      if n = m.1.length ∧ n ≤ Config.maxBaseEntries then
        match writeObject r 0 (baseHeader j.target n) s.content with
        | none => .fault (.contentAddress j.result)
        | some c =>
          let s1 := { s with content := c,
                             objects := put s.objects j.result (finishResult j n c r),
                             pool := s.pool ++ r.blocks.drop (ceilDiv (16 + 9 * n) Config.blockSize) }
          .next (retireSources j.sources (settleMerge j n m.2.length s1))
      else .next s

/-- MERGE_TOO_LARGE: the merge would write entry 349,524 (R34). Not possible, and without effect, when no merge runs, fewer
than 349,523 entries are written, or the target state has no further one. -/
def execMergeTooLarge (s : State) : Result :=
  match s.merge with
  | none => .next s
  | some j =>
    if j.entriesWritten = Config.maxBaseEntries ∧ Config.maxBaseEntries < (mergedState s j).1.length then
      .next (retireSources j.sources (failMerge j .tooLarge j.entriesWritten s))
    else .next s

/-- MERGE: the request held by the processor starts a merge job or is refused (R30, R31). -/
def execMerge (s : State) : Result :=
  match s.host.processor with
  | .busy tag .merge => .next (startMerge tag s)
  | _ => .next s

end Sys2Proof.Machine
end

