-- ==== Sys2Proof/Machine/Flags.lean ====
section
/-! DEFINITION. The tests and marks the blocks keep: the sticky flags of validators (R40, R83), the live test of ranked entries
(R82), and the idleness of lanes with its quiet-delay timer (R129, R133). -/

namespace Sys2Proof.Machine

/-! ## Sticky flags -/

/-- All flags clear (R40). -/
def StickyFlags.clear : StickyFlags := ⟨false, false, false, false, false⟩

/-- The flags with a selection of them cleared; the selection's bits are those of R172. -/
def StickyFlags.without (f : StickyFlags) (sel : Nat) : StickyFlags :=
  ⟨f.atRisk && !sel.testBit 0, f.negCrossed && !sel.testBit 1, f.missed && !sel.testBit 2,
    f.rejected && !sel.testBit 3, f.ahead && !sel.testBit 4⟩

/-- The REJECTED flag of a validator is set (R59). -/
def setRejected (v : Validator) : Validator := { v with flags := { v.flags with rejected := true } }

/-- The REJECTED flag of a validator is cleared (R59). -/
def clearRejected (v : Validator) : Validator := { v with flags := { v.flags with rejected := false } }

/-- The MISSED flag of a validator is set (R46). -/
def setMissed (v : Validator) : Validator := { v with flags := { v.flags with missed := true } }

/-! ## The live test -/

/-- A vehicle is PRESENT, ASLEEP or EXPECTED (R79, R82). -/
def rankable : VehicleState → Bool
  | .present => true
  | .asleep => true
  | .expected => true
  | .unreachable => false
  | .departed => false

/-- The live test of R82: the validator and its vehicle's index and record, none when the ranked entry is not live. -/
def liveEntry (s : State) (e : RankedEntry) : Option (Validator × Nat × Vehicle) :=
  match look s.validators e.index with
  | none => none
  | some v =>
    match v.vehicle with
    | none => none
    | some vi =>
      match look s.vehicles vi with
      | none => none
      | some veh =>
        if v.serial = e.serial ∧ v.work ≠ [] ∧ rankable veh.state = true ∧ v.flags.rejected = false then
          some (v, vi, veh)
        else none

/-! ## Idleness and the quiet-delay timer -/

/-- The conditions of idleness that hold under the frame-wake mark too: no bound slot, empty wake list, arrival flag clear, no
EDGE_LEVEL line asserted, no burst (R129, R133). -/
def idleBase (s : State) (i : LaneIx) : Bool :=
  let l := s.lane i
  decide (boundOn s i = 0) && l.wake.isEmpty && !l.arrival &&
    !(l.params.presence == .edgeLevel && l.lineAsserted) && decide (l.burst = 0)

/-- The lane is idle (R129). -/
def laneIdle (s : State) (i : LaneIx) : Bool :=
  (s.lane i).state == .active && (s.lane i).answers.isEmpty && idleBase s i

/-- The quiet-delay timer starts from the quiet delay in force; a delay of 0 makes it EXPIRED in the same step (R129). -/
def startQuietTimer (now : Time) (l : Lane) : QuietTimer :=
  if l.params.quietDelay = 0 then .expired else .running (now + l.params.quietDelay * 1000)

/-- The conditions of idleness are tested again (R129), under the frame-wake mark without the answer queue and with STARTING
allowed (R133). -/
def retestIdle (i : LaneIx) (s : State) : State :=
  let l := s.lane i
  if l.frameWake then
    if (l.state == .active || l.state == .starting) && idleBase s i then s
    else modLane i (fun l => { l with quietTimer := .stopped, frameWake := false }) s
  else if laneIdle s i then
    if l.quietTimer = .stopped then modLane i (fun l => { l with quietTimer := startQuietTimer s.now l }) s else s
  else modLane i (fun l => { l with quietTimer := .stopped }) s

end Sys2Proof.Machine
end

