-- ==== Sys2Proof/Machine/WorkList.lean ====
section
/-! DEFINITION. Work lists, BLOCK lag, the AHEAD flag and the reports of a recomputation (R55 to R58, R60). -/

namespace Sys2Proof.Machine

/-- The generation of the object at an id, 0 when the entry is unused. -/
def generationOf (s : State) (o : Nat) : Nat :=
  match look s.objects o with
  | none => 0
  | some r => r.generation

/-- The BLOCK items of a held BLOCK generation (R55). -/
def blockItems (s : State) (held : Option Nat) : List Nat :=
  match s.block with
  | none => []
  | some b =>
    match held with
    | none => b.baseObject :: b.chain
    | some g =>
      if g < b.base then b.baseObject :: b.chain
      else b.chain.filter (fun o => decide (g < generationOf s o))

/-- The BLOCK lag of a held BLOCK generation (R55). -/
def blockLag (s : State) (held : Option Nat) : Nat :=
  match s.block with
  | none => 0
  | some b =>
    match held with
    | none => b.head - b.base + 1
    | some g => if g < b.base then b.head - b.base + 1 else b.head - g

/-- The FARE item of a held FARE generation (R56). -/
def fareItems (s : State) (held : Option Nat) : List Nat :=
  match s.fare with
  | none => []
  | some f =>
    match held with
    | none => [f.image]
    | some g => if g < f.generation then [f.image] else []

/-- The work list: the BLOCK items, then the FARE item (R56). -/
def workList (s : State) (heldFare heldBlock : Option Nat) : List Nat :=
  blockItems s heldBlock ++ fareItems s heldFare

/-- A held generation is above the published one, both being present (R57). -/
def aheadOf (held published : Option Nat) : Bool :=
  match held, published with
  | some h, some p => decide (p < h)
  | some _, none => false
  | none, _ => false

/-- F, absent before the first fare publish (R3). -/
def publishedFare (s : State) : Option Nat := s.fare.map FareRecord.generation

/-- B, absent before the first base publish (R3). -/
def publishedBase (s : State) : Option Nat := s.block.map BlockRecord.base

/-- H, absent before the first base publish (R3). -/
def publishedHead (s : State) : Option Nat := s.block.map BlockRecord.head

/-- GEN_AHEAD for one stream of a validator (R57). -/
def aheadReport (serial : Nat) (st : Stream) (held published : Option Nat) : List ReportBody :=
  if aheadOf held published then [.genAhead serial st (orZero held) (orZero published)] else []

/-- The entry with its work list and BLOCK lag recomputed (R55, R56). -/
def recomputed (s : State) (v : Validator) : Validator :=
  { v with work := workList s v.heldFare v.heldBlock, lag := blockLag s v.heldBlock }

/-- VALIDATOR_CURRENT when a recomputation empties a list that was not empty (R58). -/
def currentReport (s : State) (before after : Validator) : List ReportBody :=
  if before.work ≠ [] ∧ after.work = [] then
    [.validatorCurrent after.serial (vehicleNumber s after.vehicle) after.heldFare after.heldBlock]
  else []

/-- The held generations of a validator are written, its list recomputed and its AHEAD flag set where a new value is above the
published one (R56, R57, R60). The reports follow in the order of R54: GEN_AHEAD (FARE, then BLOCK, log entry 14), then
VALIDATOR_CURRENT. -/
def writeHeld (i : Nat) (fare block : Option Nat) (s : State) : State × List ReportBody :=
  match look s.validators i with
  | none => (s, [])
  | some v =>
    let fareNew := decide (fare ≠ v.heldFare) && aheadOf fare (publishedFare s)
    let blockNew := decide (block ≠ v.heldBlock) && aheadOf block (publishedHead s)
    let v' := recomputed s { v with heldFare := fare, heldBlock := block,
                                    flags := { v.flags with ahead := v.flags.ahead || fareNew || blockNew } }
    ({ s with validators := put s.validators i v' },
      (if fareNew then aheadReport v.serial .fare fare (publishedFare s) else []) ++
      (if blockNew then aheadReport v.serial .block block (publishedHead s) else []) ++ currentReport s v v')

/-- The recomputation of one validator in a publish: its list, its REJECTED flag cleared (R18, R59), and AHEAD with GEN_AHEAD
when the publish gave its stream `first` its first published generation (R57). -/
def publishValidator (first : Option Stream) (s : State) (i : Nat) : State :=
  match look s.validators i with
  | none => s
  | some v =>
    let fareNew := decide (first = some .fare) && aheadOf v.heldFare (publishedFare s)
    let blockNew := decide (first = some .block) && aheadOf v.heldBlock (publishedHead s)
    let v' := recomputed s { v with flags := { v.flags with
                                      rejected := false, ahead := v.flags.ahead || fareNew || blockNew } }
    submitAll
      ((if fareNew then aheadReport v.serial .fare v.heldFare (publishedFare s) else []) ++
       (if blockNew then aheadReport v.serial .block v.heldBlock (publishedHead s) else []) ++ currentReport s v v')
      { s with validators := put s.validators i v' }

/-- Every validator entry in use is recomputed, in ascending roster index (R18, R56). -/
def publishRoster (first : Option Stream) (s : State) : State :=
  (keys s.validators).foldl (publishValidator first) s

end Sys2Proof.Machine
end

