-- ==== Sys2Proof/Machine/Slots.lean ====
section
/-! DEFINITION. Transfer slots: the end of a binding (R107), the immediate ends (R105), the retirement of an object (R103) and what
each outcome of a transaction does (R92 to R104). -/

namespace Sys2Proof.Machine

/-! ## The end of a binding -/

/-- Step 1 of R107: the delivery of DONE (R60, R101), or the REJECTED flag of REFUSED and OBJECT_REJECTED (R97, R102). -/
def settleValidator (b : Binding) (c : EndCond) (s : State) : State × List ReportBody :=
  match c with
  | .done =>
    match look s.validators b.validator, look s.objects b.object with
    | some v, some o =>
      match o.kind with
      | .fareImage => writeHeld b.validator (some o.generation) v.heldBlock s
      | .base => writeHeld b.validator v.heldFare (some o.generation) s
      | .delta => writeHeld b.validator v.heldFare (some o.generation) s
    | _, _ => (s, [])
  | .refused => (modValidator b.validator setRejected s, [])
  | .objectRejected => (modValidator b.validator setRejected s, [])
  | _ => (s, [])

/-- Step 2 of R107: the validator's bound slot and the vehicle's bound-slot count. -/
def unbindRoster (b : Binding) (s : State) : State :=
  modVehicle b.vehicle (fun v => { v with boundSlots := v.boundSlots - 1 })
    (modValidator b.validator (fun v => { v with boundSlot := none }) s)

/-- The report of an end (R107), with the object as it stands before its reference is dropped. -/
def transferReport (k : SlotIx) (b : Binding) (c : EndCond) (unconfirmed : Bool) (s : State) : ReportBody :=
  match look s.objects b.object with
  | none =>
    .transferEnded ⟨k, b.validator, b.serial, vehicleNumber s (some b.vehicle), b.lane, b.object, .delta, 0, c,
      unconfirmed, b.segmentsSent, b.closeAttempts⟩
  | some o =>
    .transferEnded ⟨k, b.validator, b.serial, vehicleNumber s (some b.vehicle), b.lane, b.object, o.kind, o.generation,
      c, unconfirmed, b.segmentsSent, b.closeAttempts⟩

/-- A transaction in flight of a slot belongs to no binding once the slot has ended (R106). -/
def orphan (k : SlotIx) (l : Lane) : Lane :=
  match l.transaction with
  | none => l
  | some t =>
    match t.owner with
    | .slot k' _ => if k' = k then { l with transaction := some { t with owner := .ended } } else l
    | .answer => l
    | .rollCall => l
    | .ended => l

/-- A binding ends (R107): the five steps, then the dispatch walk is due (R86) and the lane's idleness is tested (R129). -/
def endSlot (k : SlotIx) (c : EndCond) (unconfirmed : Bool) (s : State) : State :=
  match (s.slot k).binding with
  | none => s
  | some b =>
    let settled := settleValidator b c s
    let s1 := modLane b.lane (orphan k) (setSlot k ⟨none, c, unconfirmed⟩ (unbindRoster b settled.1))
    let s2 := submitAll settled.2 (submit (transferReport k b c unconfirmed s1) s1)
    retestIdle b.lane { dropRef b.object s2 with dispatchDue := true }

/-- Every bound slot that `which` picks ends at once with a condition, in ascending slot number (R105). -/
def endSlotsWhere (which : Binding → Bool) (c : EndCond) (s : State) : State :=
  allSlots.foldl (fun t k => match (t.slot k).binding with
    | none => t
    | some b => if which b then endSlot k c false t else t) s

/-- The slots of a vehicle's validators end (R105). -/
def endVehicleSlots (v : Nat) (c : EndCond) (s : State) : State := endSlotsWhere (fun b => b.vehicle == v) c s

/-- The slots bound to a lane end (R138, R141). -/
def endLaneSlots (i : LaneIx) (c : EndCond) (s : State) : State := endSlotsWhere (fun b => b.lane == i) c s

/-- The slot of one validator ends (R51, R53). -/
def endValidatorSlot (i : Nat) (c : EndCond) (s : State) : State := endSlotsWhere (fun b => b.validator == i) c s

/-! ## Errors and the retry limit -/

/-- The end of a slot whose errors have reached the retry limit: SUPERSEDED with the unconfirmed mark at step ABANDON,
RETRY_EXHAUSTED elsewhere (R92, R104). -/
def endExhausted (k : SlotIx) (b : Binding) (s : State) : State :=
  if b.step = .abandon then endSlot k .superseded true s else endSlot k .retryExhausted false s

/-- An error: consecutive errors rise by 1, and at the retry limit the slot ends in place of the effect (R92). -/
def slotError (k : SlotIx) (b : Binding) (effect : Binding → Binding) (s : State) : State :=
  if s.policy.retryLimit ≤ b.errors + 1 then
    endExhausted k b (modBinding k (fun b => { b with errors := b.errors + 1 }) s)
  else modBinding k (fun b => effect { b with errors := b.errors + 1 }) s

/-! ## Outcomes -/

/-- What the lane hands a slot (R91): a good reply, or an error. -/
inductive SlotOutcome where
  | error
  | taken
  | full
  | ready
  | busy
  | verdict (code : Nat)
deriving DecidableEq, Repr

/-- The payload bytes of segment `k` of a binding (R85). -/
def segmentBytes (s : State) (b : Binding) (k : Nat) : Nat :=
  match look s.objects b.object with
  | none => 0
  | some o => min b.segmentSize (o.declaredSize - k * b.segmentSize)

/-- The step after a confirmed one (R95). -/
def nextStep (b : Binding) : SlotStep :=
  match b.step with
  | .opening => .seg 0
  | .seg k => if k + 1 < b.segmentCount then .seg (k + 1) else .close
  | .close => .close
  | .abandon => .abandon

/-- A confirmed step advances (R95). -/
def advanceStep (b : Binding) : Binding :=
  { b with step := nextStep b, seqBit := !b.seqBit, state := .send, pendings := 0, errors := 0 }

/-- The lane's useful count rises by a confirmed segment (R68, R95). -/
def addUseful (i : LaneIx) (n : Nat) (s : State) : State :=
  modLane i (fun l => { l with useful := addSat32 l.useful n }) s

/-- The outcome of a PUT in SEND (R93, R104). -/
def putOutcome (k : SlotIx) (b : Binding) (o : SlotOutcome) (s : State) : State :=
  match o with
  | .taken =>
    if b.step = .abandon then
      endSlot k .superseded false (modBinding k (fun b => { b with errors := 0 }) s)
    else
      modBinding k (fun b => { b with errors := 0, state := .await, putTime := some s.now,
                                      fetchTime := s.now + (s.lane b.lane).params.turnaround * 1000, pendings := 0 }) s
  | .full => modBinding k (fun b => { b with errors := 0, state := .probe }) s
  | _ => slotError k b (fun b => { b with state := .probe }) s

/-- A PENDING (R98). -/
def pendingOutcome (k : SlotIx) (b : Binding) (s : State) : State :=
  if b.pendings + 1 < s.policy.pendingLimit then
    modBinding k (fun b => { b with pendings := b.pendings + 1, errors := 0,
                                    fetchTime := s.now + (s.lane b.lane).params.turnaround * 1000 }) s
  else slotError k b (fun b => { b with pendings := 0, state := .send }) s

/-- A BAD_CHECK at CLOSE (R102). -/
def badCheckOutcome (k : SlotIx) (b : Binding) (s : State) : State :=
  if b.closeAttempts = 0 then
    if objectState s b.object = some .retiring then
      modBinding k (fun b => { b with errors := 0, step := .abandon, superseded := true, state := .send, pendings := 0 }) s
    else
      modBinding k (fun b => { b with errors := 0, step := .opening, seqBit := false, closeAttempts := 1, pendings := 0,
                                      state := .send }) s
  else endSlot k .objectRejected false (modBinding k (fun b => { b with errors := 0 }) s)

/-- The outcome of a FETCH in AWAIT (R95 to R99, R101, R102). The verdict codes are those of R167. -/
def fetchOutcome (k : SlotIx) (b : Binding) (o : SlotOutcome) (s : State) : State :=
  match o with
  | .verdict 1 =>
    match b.step with
    | .seg n => modBinding k advanceStep (addUseful b.lane (segmentBytes s b n) s)
    | _ => modBinding k advanceStep s
  | .verdict 2 =>
    match b.step with
    | .seg n => modBinding k advanceStep (addUseful b.lane (segmentBytes s b n) s)
    | _ => modBinding k advanceStep s
  | .verdict 3 => modBinding k (fun b => { b with errors := 0, state := .probe, pendings := 0 }) s
  | .verdict 4 => endSlot k .refused false (modBinding k (fun b => { b with errors := 0 }) s)
  | .verdict 5 => endSlot k .done false (modBinding k (fun b => { b with errors := 0 }) s)
  | .verdict 6 => badCheckOutcome k b s
  | .verdict 7 => pendingOutcome k b s
  | _ => slotError k b id s

/-- The outcome of a PROBE (R100, R104). -/
def probeOutcome (k : SlotIx) (b : Binding) (o : SlotOutcome) (s : State) : State :=
  match o with
  | .ready => modBinding k (fun b => { b with errors := 0, state := .send }) s
  | .busy => modBinding k (fun b => { b with errors := 0 }) s
  | _ => slotError k b id s

/-- An outcome that acts on the error count alone, after the retirement of the slot's object (R103). -/
def countOnlyOutcome (k : SlotIx) (b : Binding) (o : SlotOutcome) (s : State) : State :=
  if o = .error then slotError k b id s else modBinding k (fun b => { b with errors := 0 }) s

/-- The outcome of a transaction is handed to the slot that made it (R91). -/
def slotOutcome (k : SlotIx) (countOnly : Bool) (o : SlotOutcome) (s : State) : State :=
  match (s.slot k).binding with
  | none => s
  | some b =>
    if countOnly then countOnlyOutcome k b o s
    else
      match b.state with
      | .send => putOutcome k b o s
      | .await => fetchOutcome k b o s
      | .probe => probeOutcome k b o s

/-! ## Retirement of a slot's object -/

/-- The slot's fields when its object becomes RETIRING (R103). -/
def abandonBinding (b : Binding) : Binding :=
  match b.step with
  | .close => b
  | .abandon => b
  | .opening => { b with step := .abandon, state := if b.state = .probe then .probe else .send, pendings := 0, superseded := true }
  | .seg _ => { b with step := .abandon, state := if b.state = .probe then .probe else .send, pendings := 0, superseded := true }

/-- The transaction in flight of a slot acts on the error count alone from here on (R103). -/
def markCountOnly (k : SlotIx) (l : Lane) : Lane :=
  match l.transaction with
  | none => l
  | some t =>
    match t.owner with
    | .slot k' _ => if k' = k then { l with transaction := some { t with owner := .slot k true } } else l
    | .answer => l
    | .rollCall => l
    | .ended => l

/-- One slot at the retirement of an object: at OPEN or SEG it takes step ABANDON (R103). -/
def retireSlot (o : Nat) (s : State) (k : SlotIx) : State :=
  match (s.slot k).binding with
  | none => s
  | some b =>
    if b.object = o ∧ b.step ≠ .close ∧ b.step ≠ .abandon then
      modLane b.lane (markCountOnly k) (modBinding k abandonBinding s)
    else s

/-- The transfer unit is told that an object became RETIRING (R18, R103). -/
def retireSlots (o : Nat) (s : State) : State := allSlots.foldl (retireSlot o) s

end Sys2Proof.Machine
end

