-- ==== Sys2Proof/Machine/Lanes.lean ====
section
/-! DEFINITION. What the lane controllers share: entry to STARTING, QUIET and RESETTING (R113, R130, R132, R138), the beacon with its
lists (R114 to R118), the arrival flag (R136, R137) and the arbiter of the service phase (R122 to R127). -/

namespace Sys2Proof.Machine

/-- Milliseconds as internal time. -/
def millis (n : Nat) : Time := n * 1000

/-! ## Frames in progress (R68, R112, R119, R128, R131) -/

/-- The bytes of the frame in progress that have come by a moment: its sync byte, then one each byte time (R112, log entry 11); 0 when no
frame is in progress. -/
def heardBytes (now : Time) (l : Lane) : Nat :=
  match l.reception with
  | none => 0
  | some r => min Config.partFrameBytes (1 + bytesIn l.rate (now - r.start))

/-- The spent count when the frame in progress, outside a transaction, ends with `n` bytes: those that came in the service phase are spent,
and none that came in the window or in QUIET (R119, R128, R131). -/
def spentAfter (l : Lane) (n : Nat) : Nat :=
  match l.reception with
  | none => if l.phase = .service then addSat32 l.spent n else l.spent
  | some r => addSat32 l.spent (if l.phase = .service then n - r.windowBytes else r.owed)

/-- The frame in progress, if there is one, is cut short after `n` bytes by the lane's own sending (R112, R114). -/
def cutFrame (n : Nat) (l : Lane) : Lane :=
  { l with spent := if l.reception.isSome then spentAfter l n else l.spent, reception := none }

/-! ## States of a lane -/

/-- Entry to STARTING: the preamble is sent and nothing is received (R113). The lists and the answer queue stay. -/
def enterStarting (i : LaneIx) (s : State) : State :=
  modLane i (fun l => { l with state := .starting, phase := .none, reception := none,
                               deadline := s.now + sendMicros l.rate l.params.preamble }) s

/-- The lane leaves QUIET with or without a burst (R132, R134); in EDGE mode a burst clears the arrival flag (R136). A frame in progress is
cut short by the preamble. -/
def leaveQuiet (i : LaneIx) (burst : Bool) (s : State) : State :=
  enterStarting i (modLane i (fun l =>
    { l with powerSave := false, quietMaxEnd := none, leftQuiet := some s.now, quietTimer := .stopped, frameWake := false,
             spent := spentAfter l 0, burst := if burst then l.params.burstRounds else l.burst,
             arrival := if burst && l.params.presence == .edge then false else l.arrival }) s)

/-- The lane leaves QUIET on a good INQUIRE or ANNOUNCE: its timer is EXPIRED and its frame-wake mark set (R133). -/
def leaveQuietByFrame (i : LaneIx) (s : State) : State :=
  modLane i (fun l => { l with quietTimer := .expired, frameWake := true, leftQuiet := none }) (leaveQuiet i false s)

/-- Entry to QUIET (R130). A frame in progress, of which `n` bytes have come, goes on being received; those of the service phase are spent
when it ends (R128, R131). -/
def enterQuiet (i : LaneIx) (n : Nat) (s : State) : State :=
  modLane i (fun l => { l with reception := l.reception.map (fun r => { r with owed := n - r.windowBytes }),
                               state := .quiet, phase := .none, powerSave := true, quietTimer := .stopped, frameWake := false,
                               quietMaxEnd := some (s.now + millis (1000 * l.params.quietMaximum)) }) s

/-- The whole bytes of a transaction's request sent up to a moment (R112, R126, R128, log entry 11). -/
def sentSoFar (rate : Nat) (now : Time) (t : Transaction) : Nat := min t.requestBytes (bytesIn rate (now - t.sentAt))

/-- A transaction in flight is abandoned: the bytes sent and received so far are spent (R126, R128, R138). -/
def abandonTransaction (i : LaneIx) (received : Nat) (s : State) : State :=
  modLane i (fun l =>
    match l.transaction with
    | none => { l with spent := spentAfter l received, reception := none }
    | some t => { l with spent := addSat32 l.spent (sentSoFar l.rate s.now t + received), transaction := none,
                         reception := none }) s

/-- Entry to RESETTING, in the order of R138; `received` counts the bytes of a frame it ends. -/
def enterResetting (i : LaneIx) (received : Nat) (s : State) : State :=
  modLane i (fun l => { l with state := .resetting, phase := .none, answers := [], quietTimer := .stopped, frameWake := false,
                               burst := 0, quietMaxEnd := none, leftQuiet := none, powerSave := false, reception := none,
                               deadline := s.now + bitMicros l.rate 20 })
    (endLaneSlots i .laneReset (abandonTransaction i received s))

/-! ## The arrival flag (R136, R137) -/

/-- The arrival flag is set: a QUIET lane leaves QUIET with a burst, any other lane keeps the flag for its next window (R137). -/
def setArrival (i : LaneIx) (s : State) : State :=
  let s1 := modLane i (fun l => { l with arrival := true }) s
  if (s.lane i).state = .quiet then leaveQuiet i true s1 else retestIdle i s1

/-- The arrival flag is cleared (R136). A window opened with it keeps its length. -/
def clearArrival (i : LaneIx) (s : State) : State :=
  retestIdle i (modLane i (fun l => { l with arrival := false, windowByArrival := false }) s)

/-! ## The beacon (R114 to R118) -/

/-- One ASLEEP vehicle taken for a ranked entry: live, on the lane, ASLEEP and not taken already (R117, step 1). -/
def takeAsleep (s : State) (i : LaneIx) (taken : List Nat) (e : RankedEntry) : List Nat :=
  match liveEntry s e with
  | none => taken
  | some (_, v, veh) =>
    if veh.lane = i ∧ veh.state = .asleep ∧ taken.contains v = false then taken ++ [v] else taken

/-- The order of EXPECTED vehicles: departure time with absent ones last, then vehicle number (R117, step 2). -/
def expectedBefore (a b : Vehicle) : Bool :=
  match a.departure, b.departure with
  | some x, some y => decide (x < y) || (decide (x = y) && decide (a.number ≤ b.number))
  | some _, none => true
  | none, some _ => false
  | none, none => decide (a.number ≤ b.number)

/-- A vehicle placed into a list in the order of R117. -/
def insertExpected (p : Nat × Vehicle) : List (Nat × Vehicle) → List (Nat × Vehicle)
  | [] => [p]
  | q :: qs => if expectedBefore p.2 q.2 then p :: q :: qs else q :: insertExpected p qs

/-- The EXPECTED vehicles of a lane in the order of R117, as vehicle-table indices. -/
def expectedOn (s : State) (i : LaneIx) : List Nat :=
  ((s.vehicles.filter (fun p => p.2.lane == i && p.2.state == .expected)).foldr insertExpected []).map Prod.fst

/-- The wake list of a beacon as vehicle-table indices, at most 8 (R117). -/
def wakeList (s : State) (i : LaneIx) : List Nat :=
  (s.scanner.ranked.foldl (takeAsleep s i) [] ++ expectedOn s i).take Config.beaconPlaces

/-- A vehicle is included in a wake list: its wake attempts rise, and at the maximum it becomes UNREACHABLE (R45, R118). -/
def raiseAttempts (s : State) (v : Nat) : State :=
  match look s.vehicles v with
  | none => s
  | some r =>
    if s.policy.wakeMaximum ≤ r.wakeAttempts + 1 then
      submit (.vehicleUnreachable r.number r.lane r.state (r.wakeAttempts + 1))
        { s with vehicles := put s.vehicles v { r with wakeAttempts := r.wakeAttempts + 1, state := .unreachable } }
    else { s with vehicles := put s.vehicles v { r with wakeAttempts := r.wakeAttempts + 1 } }

/-- Depot number, yard count, F, B and H, as BEACON and STATE carry them (R115, R122, R167). -/
def depotState (s : State) : List Byte :=
  leBytes 2 s.policy.depotNumber ++ leBytes 4 s.clock.count ++ leBytes 2 (orZero (publishedFare s)) ++
    leBytes 2 (orZero (publishedBase s)) ++ leBytes 2 (orZero (publishedHead s))

/-- A wake entry: the vehicle number and its complement (R117). -/
def wakeEntry (n : Nat) : List Byte := leBytes 2 n ++ leBytes 2 (65535 - n)

/-- The beacon frame (R115, R167). -/
def beaconFrame (s : State) (i : LaneIx) (acks wake : List Nat) : LaneFrame :=
  ⟨0x01, i, 0, 0, false,
    depotState s ++ leBytes 1 acks.length ++ acks.flatMap (leBytes 2) ++ leBytes 1 wake.length ++ wake.flatMap wakeEntry⟩

/-- The bytes of a frame on the lane (R122). -/
def frameBytes (f : LaneFrame) : Nat := f.body.length + 11

/-- A round begins: its inputs are taken, the roll-call mark is cleared, and the beacon is built and sent (R114 to R118). -/
def beginRound (i : LaneIx) (s : State) : State :=
  let wake := wakeList s i
  let numbers := wake.map (fun v => vehicleNumber s (some v))
  let frame := beaconFrame s i ((s.lane i).acks.take Config.beaconPlaces) numbers
  let s1 := modLane i (fun l =>
    { l with state := .active, phase := .beacon, roundStart := s.now, rate := laneRate l.params.divisor,
             inLength := l.params.roundLength, inWindow := l.params.announceWindow, rollCallMade := false,
             acks := l.acks.drop Config.beaconPlaces, wake := numbers, reception := none, sent := some frame,
             deadline := s.now + sendMicros (laneRate l.params.divisor) (frameBytes frame) }) s
  retestIdle i (wake.foldl raiseAttempts s1)

/-! ## The arbiter (R122 to R127) -/

/-- The moment at which the round length has passed (R114). -/
def roundEndTime (l : Lane) : Time := l.roundStart + millis l.inLength

/-- A budget in milliseconds fits the time left in the round (R124). -/
def fits (s : State) (i : LaneIx) (budget : Nat) : Bool := decide (millis budget ≤ roundEndTime (s.lane i) - s.now)

/-- The budget of a STATE answer in milliseconds (R124). -/
def stateBudget (l : Lane) : Nat := ceilDiv (23 * 10000) l.rate

/-- The budget of a transaction with a reply in milliseconds (R124). -/
def replyBudget (l : Lane) (request reply : Nat) : Nat := ceilDiv ((request + reply) * 10000) l.rate + l.params.replyTimeout

/-- A frame that a relay has in progress is cut short because the lane sends (R112, R128). -/
def cutReception (i : LaneIx) (s : State) : State := modLane i (fun l => cutFrame (heardBytes s.now l) l) s

/-- A STATE answer is sent and leaves the queue (R122). -/
def sendAnswer (i : LaneIx) (a : Answer) (rest : List Answer) (s : State) : State :=
  let s1 := cutReception i s
  retestIdle i (modLane i (fun l =>
    let ends := s.now + sendMicros l.rate 23
    { l with answers := rest, sent := some ⟨0x04, i, a.vehicle, a.position, a.seqBit, depotState s⟩,
             transaction := some ⟨.answer, .state, a.vehicle, a.position, a.seqBit, 23, s.now, ends, ends,
               s.now + millis (stateBudget l)⟩ }) s1)

/-- A request with a reply is sent and in flight (R126). -/
def sendRequest (i : LaneIx) (o : Owner) (x : Exchange) (reply : Nat) (f : LaneFrame) (s : State) : State :=
  let s1 := cutReception i s
  modLane i (fun l =>
    let ends := s.now + sendMicros l.rate (frameBytes f)
    { l with sent := some f,
             transaction := some ⟨o, x, f.vehicle, f.position, f.seqBit, frameBytes f, s.now, ends,
               ends + millis l.params.replyTimeout, s.now + millis (replyBudget l (frameBytes f) reply)⟩ }) s1

/-- The age of a vehicle (R44). -/
def vehicleAge (s : State) (v : Vehicle) : Nat := s.clock.count - v.lastHeard

/-- The roll-call candidate of a lane (R125): its vehicle-table index and record. -/
def rollCallCandidate (s : State) (i : LaneIx) : Option (Nat × Vehicle) :=
  if s.clock.unset then none
  else oldestBy Vehicle.lastHeard (s.vehicles.filter (fun p =>
    p.2.state == .present && p.2.lane == i && p.2.boundSlots == 0 &&
      decide (s.policy.silenceLimit ≤ vehicleAge s p.2 * 2)))

/-- What a bound slot's transaction expects (R90, R91). -/
def exchangeOf (b : Binding) : Exchange :=
  match b.state with
  | .send => .put
  | .probe => .probe
  | .await =>
    match b.step with
    | .opening => .fetchOpen
    | .seg _ => .fetchSegment
    | .close => .fetchClose
    | .abandon => .put

/-- The bytes of the request a bound slot would send (R122). -/
def requestBytes (s : State) (b : Binding) : Nat :=
  match b.state with
  | .send =>
    match b.step with
    | .opening => 31
    | .seg k => 13 + segmentBytes s b k
    | .close => 11
    | .abandon => 11
  | .await => 11
  | .probe => 11

/-- The largest reply to a bound slot's request (R124). -/
def replyBytes (b : Binding) : Nat := if b.state = .await then 12 else 11

/-- The transfer header of PUT-OPEN (R90, R168). -/
def transferHeader (s : State) (b : Binding) : List Byte :=
  match look s.objects b.object with
  | none => leBytes 20 0
  | some o =>
    leBytes 1 o.kind.stream.code ++ leBytes 1 o.kind.code ++ leBytes 2 o.generation ++ leBytes 4 o.declaredSize ++
      leBytes 4 o.declaredCrc.toNat ++ leBytes 2 b.segmentSize ++ leBytes 2 b.segmentCount ++ leBytes 4 (orZero o.effectiveTime)

/-- The body of PUT-SEG: the index, then the bytes of the segment read from the object's blocks (R85, R90, R167). -/
def segmentBody (s : State) (b : Binding) (k : Nat) : List Byte :=
  leBytes 2 k ++ (match look s.objects b.object with
    | none => []
    | some o => objectBytes s.content o (k * b.segmentSize) (segmentBytes s b k))

/-- Kind code and body of the request a bound slot sends (R90, R167). -/
def requestContent (s : State) (b : Binding) : Nat × List Byte :=
  match b.state with
  | .send =>
    match b.step with
    | .opening => (0x10, transferHeader s b)
    | .seg k => (0x11, segmentBody s b k)
    | .close => (0x12, [])
    | .abandon => (0x13, [])
  | .await => (0x14, [])
  | .probe => (0x15, [])

/-- The position of a validator as its entry holds it (R90). -/
def positionOf (s : State) (v : Nat) : Nat :=
  match look s.validators v with
  | none => 0
  | some r => r.position

/-- The request frame of a bound slot (R90). -/
def requestFrame (s : State) (b : Binding) : LaneFrame :=
  ⟨(requestContent s b).1, b.lane, vehicleNumber s (some b.vehicle), positionOf s b.validator, b.seqBit,
    (requestContent s b).2⟩

/-- A slot's state allows a transaction now (R94, R104, R124). -/
def slotReady (now : Time) (b : Binding) : Bool :=
  match b.state with
  | .send => true
  | .probe => true
  | .await => decide (b.step ≠ .abandon) && decide (b.fetchTime ≤ now)

/-- A slot is bound to the lane and eligible (R124). -/
def slotEligible (s : State) (i : LaneIx) (k : SlotIx) : Bool :=
  match (s.slot k).binding with
  | none => false
  | some b => b.lane == i && slotReady s.now b && fits s i (replyBudget (s.lane i) (requestBytes s b) (replyBytes b))

/-- The bytes of a PUT-SEG count as one segment sent (R85, R90). -/
def countSegment (b : Binding) : Binding :=
  match b.state with
  | .send =>
    match b.step with
    | .seg _ => { b with segmentsSent := addSat32 b.segmentsSent 1 }
    | .opening => b
    | .close => b
    | .abandon => b
  | .await => b
  | .probe => b

/-- A slot's transaction is sent (R90, R126, R127). -/
def sendSlot (i : LaneIx) (k : SlotIx) (s : State) : State :=
  match (s.slot k).binding with
  | none => s
  | some b =>
    modBinding k countSegment (modLane i (fun l => { l with lastServed := k })
      (sendRequest i (.slot k false) (exchangeOf b) (replyBytes b) (requestFrame s b) s))

/-- The slots in round-robin order, from the one after last served to last served itself (R127). -/
def servingOrder (last : SlotIx) : List SlotIx := allSlots.map (fun k => last + 1 + k)

/-- The slots at a choice point (R127). -/
def chooseSlot (i : LaneIx) (s : State) : State :=
  match (servingOrder (s.lane i).lastServed).find? (slotEligible s i) with
  | none => s
  | some k => sendSlot i k s

/-- The roll-call at a choice point, then the slots (R123, R125). -/
def chooseRollCall (i : LaneIx) (s : State) : State :=
  if (s.lane i).rollCallMade then chooseSlot i s
  else
    match rollCallCandidate s i with
    | none => chooseSlot i s
    | some (_, v) =>
      if fits s i (replyBudget (s.lane i) 11 11) then
        modLane i (fun l => { l with rollCallMade := true })
          (sendRequest i .rollCall .probe 11 ⟨0x15, i, v.number, 0, false, []⟩ s)
      else chooseSlot i s

/-- A choice point of a lane (R123): without effect unless the lane is idle in a service phase. -/
def choose (i : LaneIx) (s : State) : State :=
  let l := s.lane i
  if l.state = .active ∧ l.phase = .service ∧ l.transaction = none then
    match l.answers with
    | [] => chooseRollCall i s
    | a :: rest => if fits s i (stateBudget l) then sendAnswer i a rest s else chooseRollCall i s
  else s

/-- The choice points that a step makes: every lane idle in a service phase chooses again (R123). -/
def chooseAll (s : State) : State := allLanes.foldl (fun t i => choose i t) s

end Sys2Proof.Machine
end

