-- ==== Sys2Proof/WellFormed.lean ====
section
/-! DEFINITION. Which commands can be sent at all: the checks that depend on the operands alone. -/

namespace Sys2Proof

/-- The bytes after a start byte are one whole host frame: length, kind, tag, body and CRC-16 (R144, R165). -/
def wholeHostFrame (bs : List Byte) : Bool :=
  let len := Machine.field bs 0 2
  decide (2 ≤ len) && decide (len ≤ 1102) && decide (bs.length = len + 4)

/-- The bytes taken so far end a frame by their length field: both length bytes, out of range (R144). -/
def badHostLength (bs : List Byte) : Bool :=
  decide (bs.length = 2) && !(decide (2 ≤ Machine.field bs 0 2) && decide (Machine.field bs 0 2 ≤ 1102))

/-- The bytes taken so far are the beginning of a frame that is still in progress (R144). -/
def partHostFrame (bs : List Byte) : Bool :=
  decide (bs.length < 2) ||
    (decide (2 ≤ Machine.field bs 0 2) && decide (Machine.field bs 0 2 ≤ 1102) &&
      decide (bs.length < Machine.field bs 0 2 + 4))

/-- The bytes are one lane frame that ended by its length: sync byte and a length field of at most 2,297 (R166). -/
def wholeLaneFrame (bs : List Byte) : Bool :=
  decide (bs.head? = some 0x5C) && decide (Machine.field bs 7 2 ≤ 2297) &&
    decide (bs.length = Machine.field bs 7 2 + 11)

/-- The bytes are the nine bytes of a lane frame whose length field is above 2,297 (R166). -/
def tooLongLaneFrame (bs : List Byte) : Bool :=
  decide (bs.head? = some 0x5C) && decide (bs.length = 9) && decide (2297 < Machine.field bs 7 2)

/-- A well-formed command: its operands can occur. -/
def Instr.wellFormed : Instr → Bool
  | .hostFrameEnd bs => wholeHostFrame bs
  | .hostFrameAbort bs => badHostLength bs || partHostFrame bs
  | .hostFrameTimeout bs => partHostFrame bs
  | .mergeProgress n => decide (0 < n)
  | .silenceLimitReached v => decide (v < Config.vehicleEntries)
  | .scanEntryTurn i => decide (i < Config.validatorEntries)
  | .roundEnd _ n => decide (n ≤ 2307)
  | .laneFrameReceived _ bs _ => wholeLaneFrame bs
  | .laneFrameIdleEnd _ n _ => decide (0 < n) && decide (n ≤ 2307)
  | .transactionBudgetEnd _ n => decide (0 < n) && decide (n ≤ 2307)
  | .laneBreakReceived _ n _ => decide (n ≤ 2307)
  | .laneFrameTooLong _ bs _ => tooLongLaneFrame bs
  | .powerOn _ => true
  | .resetPinAssert => true
  | .resetPinRelease _ => true
  | .resetPartTakesEffect _ => true
  | .hostFrameStart => true
  | .hostLinkBreak => true
  | .hostBreakEnd => true
  | .requestTake => true
  | .transmitStart => true
  | .transmitEnd => true
  | .identify => true
  | .resetPart => true
  | .loadOpen => true
  | .loadData => true
  | .loadClose => true
  | .discard => true
  | .publishFareImage => true
  | .publishDelta => true
  | .publishBase => true
  | .merge => true
  | .mergeComplete => true
  | .mergeTooLarge => true
  | .listObjects => true
  | .expectVehicle => true
  | .setDeparture => true
  | .departVehicle => true
  | .readVehicle => true
  | .readValidator => true
  | .readRanking => true
  | .clearFlags => true
  | .setLane => true
  | .switchLaneOn => true
  | .switchLaneOff => true
  | .readLane => true
  | .resetLane => true
  | .wakeLane => true
  | .setPolicy => true
  | .setTime => true
  | .scanNow => true
  | .readSlots => true
  | .yardClockTick => true
  | .scanPeriodExpiry => true
  | .scanComplete => true
  | .dispatchWalk => true
  | .lanePreambleEnd _ => true
  | .beaconEnd _ => true
  | .windowClose _ => true
  | .fetchTimeReached _ => true
  | .stateSendEnd _ => true
  | .replyTimeout _ => true
  | .quietDelayExpiry _ => true
  | .quietMaximumExpiry _ => true
  | .presenceAssert _ => true
  | .presenceDeassert _ => true
  | .laneBreakEnd _ => true
  | .laneFrameStart _ _ => true

end Sys2Proof
end

