-- ==== Sys2Proof/Machine/Operands.lean ====
section
/-! DEFINITION. What commands carry, read from bytes: the fields of requests (R154, R157 to R163) and the frames of relays
(R120, R166, R167, R169). -/

namespace Sys2Proof.Machine

/-! ## Requests -/

/-- The shortest and longest body a request kind allows; none when the kind is no request kind (R148, R154, R165). -/
def bodyLengths : Nat → Option (Nat × Nat)
  | 0x01 => some (0, 0)
  | 0x02 => some (0, 0)
  | 0x03 => some (16, 16)
  | 0x04 => some (5, 1100)
  | 0x05 => some (1, 1)
  | 0x06 => some (1, 1)
  | 0x07 => some (2, 2)
  | 0x08 => some (0, 0)
  | 0x09 => some (0, 0)
  | 0x0A => some (7, 7)
  | 0x0B => some (6, 6)
  | 0x0C => some (2, 2)
  | 0x0D => some (2, 2)
  | 0x0E => some (4, 4)
  | 0x0F => some (3, 3)
  | 0x10 => some (5, 5)
  | 0x11 => some (30, 30)
  | 0x12 => some (1, 1)
  | 0x13 => some (1, 1)
  | 0x14 => some (1, 1)
  | 0x15 => some (13, 13)
  | 0x16 => some (4, 4)
  | 0x17 => some (0, 0)
  | 0x18 => some (0, 0)
  | _ => none

/-- The sixteen parameter fields of a SET_LANE body (R160). -/
def laneFields (b : List Byte) : RawLaneFields where
  divisor := field b 4 2
  roundLength := field b 6 2
  announceWindow := field b 8 1
  preamble := field b 9 1
  replyTimeout := field b 10 2
  turnaround := field b 12 2
  slotsPerLane := field b 14 1
  segmentSize := field b 15 2
  guardMargin := field b 17 2
  atRiskLimit := field b 19 2
  crossing := field b 21 1
  initialEfficiency := field b 22 2
  quietDelay := field b 24 2
  quietMaximum := field b 26 2
  burstRounds := field b 28 1
  presence := field b 29 1

/-- The nine value fields of a SET_POLICY body (R162). -/
def policyFields (b : List Byte) : Policy where
  retryLimit := field b 2 1
  pendingLimit := field b 3 1
  urgentLag := field b 4 1
  scanPeriod := field b 5 1
  silenceLimit := field b 6 2
  wakeMaximum := field b 8 1
  relayDepth := field b 9 1
  reportThreshold := field b 10 1
  depotNumber := field b 11 2

/-- The fields of a body by its request kind (R157, R159 to R163); none for a kind that is no request kind. -/
def parseBody (kind : Nat) (b : List Byte) : Option Request :=
  match kind with
  | 0x01 => some .identify
  | 0x02 => some .resetPart
  | 0x03 => some (.loadOpen (field b 0 1) (field b 1 1) (field b 2 2) (field b 4 4) (field b 8 4) (field b 12 4))
  | 0x04 => some (.loadData (field b 0 1) (field b 1 4) (b.drop 5))
  | 0x05 => some (.loadClose (field b 0 1))
  | 0x06 => some (.discard (field b 0 1))
  | 0x07 => some (.publish (field b 0 1) (field b 1 1))
  | 0x08 => some .merge
  | 0x09 => some .listObjects
  | 0x0A => some (.expectVehicle (field b 0 2) (field b 2 1) (field b 3 4))
  | 0x0B => some (.setDeparture (field b 0 2) (field b 2 4))
  | 0x0C => some (.departVehicle (field b 0 2))
  | 0x0D => some (.readVehicle (field b 0 2))
  | 0x0E => some (.readValidator (field b 0 4))
  | 0x0F => some (.readRanking (field b 0 2) (field b 2 1))
  | 0x10 => some (.clearFlags (field b 0 4) (field b 4 1))
  | 0x11 => some (.setLane (field b 0 1) (field b 1 1) (field b 2 2) (laneFields b))
  | 0x12 => some (.readLane (field b 0 1))
  | 0x13 => some (.resetLane (field b 0 1))
  | 0x14 => some (.wakeLane (field b 0 1))
  | 0x15 => some (.setPolicy (field b 0 2) (policyFields b))
  | 0x16 => some (.setTime (field b 0 4))
  | 0x17 => some .scanNow
  | 0x18 => some .readSlots
  | _ => none

/-- A lane number as carried, none above 5 (R154). -/
def laneOf (n : Nat) : Option LaneIx := if h : n < 6 then some ⟨n, h⟩ else none

/-- A vehicle number that a request or an announce may name (00_scope: 1 to 65534). -/
def vehicleNumberOk (n : Nat) : Bool := decide (n ≠ 0) && decide (n < 65535)

/-! ## Frames of relays -/

/-- An item of an announce (R169); a held generation of 0 is read as absent (R51). -/
structure AnnounceItem where
  serial : Nat
  position : Nat
  fare : Option Nat
  block : Option Nat
deriving DecidableEq, Repr

/-- What a good frame of a relay says (R167). -/
inductive RelayMessage where
  | announce (sleep : Bool) (items : List AnnounceItem)
  | inquire
  | taken
  | full
  | verdict (code : Nat)
  | ready
  | busy
deriving DecidableEq, Repr

/-- A good frame (R120). -/
structure RelayFrame where
  vehicle : Nat
  position : Nat
  seqBit : Bool
  message : RelayMessage
deriving DecidableEq, Repr

/-- One announce item from the nine bytes at an offset (R169). -/
def announceItem (b : List Byte) (at_ : Nat) : AnnounceItem :=
  ⟨field b at_ 4, field b (at_ + 4) 1, absentZero (field b (at_ + 5) 2), absentZero (field b (at_ + 7) 2)⟩

/-- The message of a kind and body whose length the kind allows (R166, R167); none for any other kind or length. -/
def relayMessage (kind : Nat) (b : List Byte) : Option RelayMessage :=
  match kind with
  | 0x02 =>
    if 2 ≤ b.length ∧ b.length = 2 + 9 * field b 1 1 then
      some (.announce (decide (field b 0 1 ≠ 0)) ((List.range (field b 1 1)).map (fun i => announceItem b (2 + 9 * i))))
    else none
  | 0x03 => if b.length = 0 then some .inquire else none
  | 0x20 => if b.length = 0 then some .taken else none
  | 0x21 => if b.length = 0 then some .full else none
  | 0x22 => if b.length = 1 then some (.verdict (field b 0 1)) else none
  | 0x23 => if b.length = 0 then some .ready else none
  | 0x24 => if b.length = 0 then some .busy else none
  | _ => none

/-- The tests of a good frame: sync byte, kind, lane, body length, CRC-16 (R120); none for a garbled frame. -/
def goodFrame (lane : LaneIx) (bs : List Byte) : Option RelayFrame :=
  let len := field bs 7 2
  if bs.head? = some 0x5C ∧ bs.length = len + 11 ∧ field bs 2 1 = lane.val ∧
      field bs (len + 9) 2 = (crc16 ((bs.drop 1).take (len + 8))).toNat then
    (relayMessage (field bs 1 1) ((bs.drop 9).take len)).map
      (fun m => ⟨field bs 3 2, field bs 5 1, decide (field bs 6 1 % 2 = 1), m⟩)
  else none

end Sys2Proof.Machine
end

