-- ==== Sys2Proof/Machine/Roster.lean ====
section
/-! DEFINITION. The fleet roster: departures (R46), the refresh by good frames (R43), evictions (R48, R52), announces (R47 to R54) and
the fleet requests EXPECT_VEHICLE, SET_DEPARTURE, DEPART_VEHICLE, READ_VEHICLE, READ_VALIDATOR and CLEAR_FLAGS. -/

namespace Sys2Proof.Machine

/-! ## Departures (R46) -/

/-- The validators of a vehicle with BLOCK lag above 0: roster index, serial and lag, in list order (R46). -/
def behindOf (s : State) (ids : List Nat) : List (Nat × Nat × Nat) :=
  ids.filterMap (fun i => match look s.validators i with
    | none => none
    | some v => if 0 < v.lag then some (i, v.serial, v.lag) else none)

/-- MISSED_DEPARTURE and the MISSED flags (R46, step 3). -/
def missDeparture (number : Nat) (behind : List (Nat × Nat × Nat)) (s : State) : State :=
  if behind = [] then s
  else submit (.missedDeparture number (behind.map Prod.snd))
    (behind.foldl (fun t p => modValidator p.1 setMissed t) s)

/-- A vehicle enters DEPARTED with a cause (R46). -/
def depart (v : Nat) (cause : DepartCause) (s : State) : State :=
  match look s.vehicles v with
  | none => s
  | some r =>
    let s1 := endVehicleSlots v .vehicleGone s
    let s2 := modVehicle v (fun r => { r with state := .departed }) s1
    missDeparture r.number (behindOf s2 r.validators) (submit (.vehicleGone r.number r.lane r.state cause) s2)

/-- The vehicles of a lane that are not DEPARTED depart, in ascending index (R141, step 3). -/
def departLane (i : LaneIx) (s : State) : State :=
  (keys s.vehicles).foldl (fun t v => match look t.vehicles v with
    | none => t
    | some r => if r.lane = i ∧ r.state ≠ .departed then depart v .laneOff t else t) s

/-! ## The silence check (R44) -/

/-- The check of one vehicle under the silence limit in force (R44). -/
def silenceCheck (s : State) (v : Nat) : State :=
  match look s.vehicles v with
  | none => s
  | some r =>
    if r.state = .present ∧ s.silenceApplied ≤ vehicleAge s r then depart v .silence s else s

/-- The roster's check at a new yard time: a new limit is taken up, then every PRESENT vehicle is checked; none while time is
unset (R44, log entry 13). -/
def silenceCheckAll (s : State) : State :=
  if s.clock.unset then s
  else (keys s.vehicles).foldl silenceCheck { s with silenceApplied := s.policy.silenceLimit }

/-! ## The refresh by a good frame (R43) -/

/-- A good frame that is not an announce refreshes its vehicle, and takes an EXPECTED, ASLEEP or UNREACHABLE one to PRESENT
(R43). The lane in its VEHICLE_ARRIVED is the record's (log entry 38). -/
def refresh (number : Nat) (s : State) : State :=
  match vehicleAt s number with
  | none => s
  | some v =>
    match look s.vehicles v with
    | none => s
    | some r =>
      match r.state with
      | .present => { s with vehicles := put s.vehicles v { r with lastHeard := s.clock.count } }
      | .departed => { s with vehicles := put s.vehicles v { r with lastHeard := s.clock.count } }
      | _ =>
        submit (.vehicleArrived r.number r.lane r.validators.length)
          { s with vehicles := put s.vehicles v { r with lastHeard := s.clock.count, state := .present, wakeAttempts := 0 },
                   dispatchDue := true }

/-! ## Evictions (R48, R52) -/

/-- A vehicle that can be evicted (R48). -/
def evictable (v : Vehicle) : Bool := v.state == .departed || v.state == .unreachable

/-- The vehicle entry to be evicted (R48). -/
def vehicleToEvict (s : State) : Option (Nat × Vehicle) :=
  oldestBy Vehicle.lastHeard (s.vehicles.filter (fun p => evictable p.2))

/-- A validator loses its vehicle (R48, R53). -/
def unattach (s : State) (i : Nat) : State := modValidator i (fun r => { r with vehicle := none }) s

/-- A vehicle entry is evicted: its validators are detached and the table's mark is cleared (R48, R49). -/
def evictVehicle (v : Nat) (r : Vehicle) (s : State) : State :=
  { r.validators.foldl unattach s with
    vehicles := erase s.vehicles v, vehicleFull := false }

/-- A vehicle-table entry for a new record: the lowest unused one, or an evicted one; none when there is no candidate
(R39, R48). -/
def roomForVehicle (s : State) : Option (Nat × State) :=
  if lowestUnused 0 s.vehicles < Config.vehicleEntries then some (lowestUnused 0 s.vehicles, s)
  else
    match vehicleToEvict s with
    | none => none
    | some (v, r) => some (v, evictVehicle v r s)

/-- A validator belongs to a DEPARTED vehicle (R52). -/
def onDeparted (s : State) (v : Validator) : Bool :=
  match v.vehicle.bind (look s.vehicles) with
  | none => false
  | some r => r.state == .departed

/-- The validator entry to be evicted: of the detached ones, else of those under a DEPARTED vehicle (R52). -/
def validatorToEvict (s : State) : Option (Nat × Validator) :=
  match oldestBy Validator.lastHeard (s.validators.filter (fun p => p.2.vehicle.isNone && p.2.boundSlot.isNone)) with
  | some p => some p
  | none => oldestBy Validator.lastHeard (s.validators.filter (fun p => onDeparted s p.2 && p.2.boundSlot.isNone))

/-- A validator leaves the list of its vehicle. -/
def unlist (i : Nat) (vehicle : Option Nat) (s : State) : State :=
  match vehicle with
  | none => s
  | some v => modVehicle v (fun r => { r with validators := r.validators.filter (fun j => decide (j ≠ i)) }) s

/-- A validator entry is evicted and the table's mark is cleared (R49, R52). -/
def evictValidator (i : Nat) (r : Validator) (s : State) : State :=
  { unlist i r.vehicle s with validators := erase s.validators i, validatorFull := false }

/-- A validator-table entry for a new validator: the lowest unused one, or an evicted one (R40, R52). -/
def roomForValidator (s : State) : Option (Nat × State) :=
  if lowestUnused 0 s.validators < Config.validatorEntries then some (lowestUnused 0 s.validators, s)
  else
    match validatorToEvict s with
    | none => none
    | some (i, r) => some (i, evictValidator i r s)

/-- ROSTER_FULL for the vehicle table, once until an entry is evicted (R49). -/
def vehicleTableFull (number : Nat) (s : State) : State :=
  if s.vehicleFull then s else submit (.rosterFull .vehicle number 0) { s with vehicleFull := true }

/-- ROSTER_FULL for the validator table, once until an entry is evicted (R49). -/
def validatorTableFull (number serial : Nat) (s : State) : State :=
  if s.validatorFull then s else submit (.rosterFull .validator number serial) { s with validatorFull := true }

/-! ## Announces (R47 to R54) -/

/-- No number occurs twice. -/
def distinct : List Nat → Bool
  | [] => true
  | a :: as => !as.contains a && distinct as

/-- An announce is well formed (R47). -/
def announceOk (number : Nat) (items : List AnnounceItem) : Bool :=
  vehicleNumberOk number && decide (0 < items.length) && decide (items.length ≤ 4) &&
    items.all (fun t => decide (t.serial ≠ 0) && decide (1 ≤ t.position) && decide (t.position ≤ 4)) &&
    distinct (items.map AnnounceItem.serial) && distinct (items.map AnnounceItem.position)

/-- A validator entry as it is created, before its item's generations are written (R40). -/
def newValidator (serial position now : Nat) : Validator :=
  ⟨serial, none, position, none, none, [], 0, .full, 1, none, .none, StickyFlags.clear, none, now⟩

/-- The entry of an item is found or created (R51, step 1); none when the item is dropped. -/
def findOrCreate (t : AnnounceItem) (s : State) : Option (Nat × State) :=
  match validatorAt s t.serial with
  | some i => some (i, s)
  | none =>
    match roomForValidator s with
    | none => none
    | some (i, s1) => some (i, { s1 with validators := put s1.validators i (newValidator t.serial t.position s.clock.count) })

/-- An entry listed under another vehicle leaves it, and its bound slot ends with MOVED (R51, step 2). -/
def moveFrom (v i : Nat) (s : State) : State :=
  match look s.validators i with
  | none => s
  | some r =>
    if r.vehicle = none ∨ r.vehicle = some v then s
    else endValidatorSlot i .moved (unlist i r.vehicle s)

/-- One item of an announce of the vehicle at index `v` (R51); `taken` collects the roster indices and positions of the items
that were not dropped. -/
def announceOne (v number : Nat) (acc : State × List (Nat × Nat)) (t : AnnounceItem) : State × List (Nat × Nat) :=
  match findOrCreate t acc.1 with
  | none => (validatorTableFull number t.serial acc.1, acc.2)
  | some (i, s1) =>
    let s2 := moveFrom v i s1
    let s3 := modValidator i (fun r => { r with vehicle := some v, position := t.position, lastHeard := s2.clock.count }) s2
    let written := writeHeld i t.fare t.block s3
    (submitAll written.2 written.1, acc.2 ++ [(t.position, i)])

/-- A pair placed into a list in ascending first number. -/
def insertPair (p : Nat × Nat) : List (Nat × Nat) → List (Nat × Nat)
  | [] => [p]
  | q :: qs => if p.1 ≤ q.1 then p :: q :: qs else q :: insertPair p qs

/-- The roster indices of the items that were not dropped, in ascending position (R51). -/
def listedInOrder (taken : List (Nat × Nat)) : List Nat := (taken.foldr insertPair []).map Prod.snd

/-- Validators that an announce does not name are detached, and their bound slots end with MOVED, in ascending slot number (R53, R105). -/
def detachAll (ids : List Nat) (s : State) : State :=
  endSlotsWhere (fun b => ids.contains b.validator) .moved (ids.foldl unattach s)

/-- The announcing vehicle is placed on the lane's acknowledge list (R54, R116). -/
def placeAck (i : LaneIx) (number : Nat) (s : State) : State :=
  modLane i (fun l =>
    if l.acks.contains number = false ∧ l.acks.length < Config.ackPlaces then { l with acks := l.acks ++ [number] } else l) s

/-- The announce's record: the vehicle's index and its state before, none for a record that this announce creates; nothing when
there is no room (R47, R48). -/
def announceRecord (i : LaneIx) (number : Nat) (s : State) : Option (Nat × Option VehicleState × State) :=
  match vehicleAt s number with
  | some v => some (v, (look s.vehicles v).map Vehicle.state, s)
  | none =>
    match roomForVehicle s with
    | none => none
    | some (v, s1) =>
      some (v, none, { s1 with
        vehicles := put s1.vehicles v ⟨number, i, .present, none, [], s.clock.count, 0, 0⟩ })

/-- The vehicle's record under R47 and R50: last-heard time, wake attempts, state and lane, with the slot ends they cause. -/
def announceVehicle (i : LaneIx) (sleep : Bool) (v : Nat) (before : Option VehicleState) (s : State) : State :=
  let s1 := modVehicle v (fun r => { r with lastHeard := s.clock.count, wakeAttempts := 0,
                                            state := if sleep then .asleep else .present }) s
  let s2 := if sleep = true ∧ before = some .present then endVehicleSlots v .asleep s1 else s1
  match look s2.vehicles v with
  | none => s2
  | some r =>
    if r.lane = i then s2 else endVehicleSlots v .moved (modVehicle v (fun r => { r with lane := i }) s2)

/-- The end of an announce: the acknowledgement, and VEHICLE_ARRIVED with the doubling of the next window when the vehicle came
to PRESENT (R54, R119, log entry 19). -/
def announceEnd (i : LaneIx) (number : Nat) (arrived : Bool) (count : Nat) (s : State) : State :=
  let s1 := placeAck i number s
  if arrived then
    submit (.vehicleArrived number i count)
      (modLane i (fun l => { l with doublingDue := l.doublingDue || l.state == .active }) s1)
  else s1

/-- An announce is handled whole (R47 to R54). A malformed one changes nothing (R47); one without room is dropped (R49). -/
def announce (i : LaneIx) (number : Nat) (sleep : Bool) (items : List AnnounceItem) (s : State) : State :=
  if announceOk number items then
    match announceRecord i number s with
    | none => vehicleTableFull number s
    | some (v, before, s1) =>
      let s2 := announceVehicle i sleep v before s1
      let former := match look s2.vehicles v with
        | none => []
        | some r => r.validators
      let handled := items.foldl (announceOne v number) (s2, [])
      let listed := listedInOrder handled.2
      let s3 := detachAll (former.filter (fun j => listed.contains j = false)) handled.1
      let s4 := modVehicle v (fun r => { r with validators := listed }) s3
      { announceEnd i number (decide (before ≠ some .present) && !sleep) listed.length s4 with dispatchDue := true }
  else s

/-! ## Fleet requests (R41, R42, R61, R83) -/

/-- EXPECT_VEHICLE for a vehicle that has a record (R41). -/
def expectKnown (v : Nat) (i : LaneIx) (departure : Option Nat) (s : State) : State :=
  match look s.vehicles v with
  | none => s
  | some r =>
    let s1 := modVehicle v (fun r => { r with lane := i, departure := departure, wakeAttempts := 0,
                                              state := if r.state = .present then .present else .expected }) s
    if r.lane = i then s1 else endVehicleSlots v .moved s1

/-- EXPECT_VEHICLE (R41). -/
def expectVehicle (tag : Byte) (number lane departure : Nat) (s : State) : State :=
  match vehicleNumberOk number, laneOf lane with
  | true, some i =>
    if (s.lane i).state = .off then refuse 0x0A tag .laneOff s
    else
      match vehicleAt s number with
      | some v => chooseAll (answer 0x0A tag .ok (leBytes 1 v) (expectKnown v i (absentZero departure) s))
      | none =>
        match roomForVehicle s with
        | none => refuse 0x0A tag .noSpace s
        | some (v, s1) =>
          chooseAll (answer 0x0A tag .ok (leBytes 1 v)
            { s1 with vehicles := put s1.vehicles v
                        ⟨number, i, .expected, absentZero departure, [], s.clock.count, 0, 0⟩ })
  | _, _ => refuse 0x0A tag .badField s

/-- EXPECT_VEHICLE: the request held by the processor (R41). -/
def execExpectVehicle (s : State) : Result :=
  match s.host.processor with
  | .busy tag (.expectVehicle number lane departure) => .next (expectVehicle tag number lane departure s)
  | _ => .next s

/-- SET_DEPARTURE: the request held by the processor (R42). -/
def execSetDeparture (s : State) : Result :=
  match s.host.processor with
  | .busy tag (.setDeparture number departure) =>
    .next (if vehicleNumberOk number then
      match vehicleAt s number with
      | none => refuse 0x0B tag .notFound s
      | some v => answer 0x0B tag .ok [] (modVehicle v (fun r => { r with departure := absentZero departure }) s)
    else refuse 0x0B tag .badField s)
  | _ => .next s

/-- DEPART_VEHICLE for a vehicle that has a record; one that is DEPARTED already is left as it is (R42). -/
def departKnown (v : Nat) (s : State) : State :=
  match look s.vehicles v with
  | none => s
  | some r => if r.state = .departed then s else depart v .request s

/-- DEPART_VEHICLE: the request held by the processor (R42). -/
def execDepartVehicle (s : State) : Result :=
  match s.host.processor with
  | .busy tag (.departVehicle number) =>
    .next (if vehicleNumberOk number then
      match vehicleAt s number with
      | none => refuse 0x0C tag .notFound s
      | some v => chooseAll (answer 0x0C tag .ok [] (departKnown v s))
    else refuse 0x0C tag .badField s)
  | _ => .next s

/-- The fields of a READ_VEHICLE reply (R61, R159). -/
def vehicleFields (s : State) (v : Nat) (r : Vehicle) : List Byte :=
  leBytes 1 v ++ leBytes 2 r.number ++ leBytes 1 r.lane ++ leBytes 1 r.state.code ++ leBytes 4 (orZero r.departure) ++
    leBytes 4 r.lastHeard ++ leBytes 1 r.wakeAttempts ++ leBytes 1 r.boundSlots ++ leBytes 1 r.validators.length ++
    r.validators.flatMap (fun i => match look s.validators i with
      | none => leBytes 4 0
      | some x => leBytes 4 x.serial)

/-- READ_VEHICLE: the request held by the processor (R61). -/
def execReadVehicle (s : State) : Result :=
  match s.host.processor with
  | .busy tag (.readVehicle number) =>
    .next (if vehicleNumberOk number then
      match vehicleAt s number with
      | none => refuse 0x0D tag .notFound s
      | some v =>
        match look s.vehicles v with
        | none => refuse 0x0D tag .notFound s
        | some r => answer 0x0D tag .ok (vehicleFields s v r) s
    else refuse 0x0D tag .badField s)
  | _ => .next s

/-- The fields of a READ_VALIDATOR reply (R61, R159). -/
def validatorFields (s : State) (i : Nat) (v : Validator) : List Byte :=
  leBytes 2 i ++ leBytes 4 v.serial ++ leBytes 2 (vehicleNumber s v.vehicle) ++ leBytes 1 v.position ++
    leBytes 2 (orZero v.heldFare) ++ leBytes 2 (orZero v.heldBlock) ++ leBytes 1 v.lag ++ leBytes 1 v.plan.code ++
    leBytes 1 v.cls ++ int16Bytes (v.slack.getD 0) ++ boolByte v.slack.isSome ++ leBytes 1 v.prevSign.code ++
    leBytes 1 v.flags.code ++ leBytes 1 (orNone (v.boundSlot.map Fin.val)) ++ leBytes 4 v.lastHeard ++
    leBytes 1 v.work.length ++ v.work.flatMap (leBytes 1)

/-- READ_VALIDATOR: the request held by the processor (R61). -/
def execReadValidator (s : State) : Result :=
  match s.host.processor with
  | .busy tag (.readValidator serial) =>
    .next (if serial = 0 then refuse 0x0E tag .badField s
    else
      match validatorAt s serial with
      | none => refuse 0x0E tag .notFound s
      | some i =>
        match look s.validators i with
        | none => refuse 0x0E tag .notFound s
        | some v => answer 0x0E tag .ok (validatorFields s i v) s)
  | _ => .next s

/-- An entry with the selected flags cleared (R83). -/
def clearFlags (sel : Nat) (v : Validator) : Validator := { v with flags := v.flags.without sel }

/-- The entries that CLEAR_FLAGS names: one, or with serial 0 every one in use (R83). -/
def namedEntries (s : State) (serial : Nat) : Table Validator :=
  if serial = 0 then s.validators else s.validators.filter (fun p => p.2.serial == serial)

/-- CLEAR_FLAGS carried out: a cleared REJECTED flag makes a dispatch walk due (R83, R86). -/
def clearNamed (tag : Byte) (serial sel : Nat) (s : State) : State :=
  let named := namedEntries s serial
  let changed := named.filter (fun p => decide (p.2.flags ≠ p.2.flags.without sel))
  answer 0x10 tag .ok (leBytes 2 changed.length)
    { s with
      validators := s.validators.map (fun p => if serial = 0 ∨ p.2.serial = serial then (p.1, clearFlags sel p.2) else p),
      dispatchDue := s.dispatchDue || named.any (fun p => p.2.flags.rejected && sel.testBit 3) }

/-- CLEAR_FLAGS: the request held by the processor (R83). -/
def execClearFlags (s : State) : Result :=
  match s.host.processor with
  | .busy tag (.clearFlags serial sel) =>
    .next (if sel = 0 ∨ 32 ≤ sel then refuse 0x10 tag .badField s
    else if serial ≠ 0 ∧ validatorAt s serial = none then refuse 0x10 tag .notFound s
    else clearNamed tag serial sel s)
  | _ => .next s

/-- SILENCE_LIMIT_REACHED for the vehicle at an index (R44). Not possible, and without effect, while time is unset, or when the
vehicle is not PRESENT or its age is below the limit. -/
def execSilenceLimitReached (v : Nat) (s : State) : Result :=
  if s.clock.unset then .next s else .next (chooseAll (silenceCheck s v))

end Sys2Proof.Machine
end

