-- ==== Sys2Proof/Machine/Catalogue.lean ====
section
/-! DEFINITION. The content catalogue: loading, discarding, publishing and listing objects (R5 to R21, R157, R158). -/

namespace Sys2Proof.Machine

/-! ## LOAD_OPEN (R5 to R7) -/

/-- The largest declared size of a kind (R5). -/
def sizeLimit : ObjKind → Nat
  | .fareImage => 262144
  | .base => 3145728
  | .delta => 65536

/-- The kind of a stream code and a kind code that belong together; none when either is unknown or they do not (R5, R13). -/
def pairedKind (stream kind : Nat) : Option ObjKind :=
  match kindOfCode kind with
  | none => none
  | some k => if stream = k.stream.code then some k else none

/-- The field checks of LOAD_OPEN (R5): the kind, none when a field is refused. -/
def loadKind (stream kind size effective : Nat) : Option ObjKind :=
  match pairedKind stream kind with
  | none => none
  | some k => if (k = .fareImage ∨ effective = 0) ∧ 0 < size ∧ size ≤ sizeLimit k then some k else none

/-- A generation is above an optional one. -/
def aboveOpt (g : Nat) (o : Option Nat) : Bool :=
  match o with
  | none => true
  | some p => decide (p < g)

/-- The generation of the staged object of a kind (R4). -/
def stagedGeneration (s : State) (k : ObjKind) : Option Nat := (objectOf s k .staged).map (generationOf s)

/-- The generation check of LOAD_OPEN (R6, step 1). -/
def generationOk (s : State) (k : ObjKind) (g : Nat) : Bool :=
  decide (g ≠ 0) &&
    match k with
    | .fareImage => aboveOpt g (publishedFare s) && aboveOpt g (stagedGeneration s .fareImage)
    | .base => aboveOpt g (publishedBase s)
    | .delta =>
      match publishedHead s with
      | none => false
      | some h => decide (g = h + 1)

/-- The chain check of LOAD_OPEN (R6, step 2). -/
def chainFull (s : State) (k : ObjKind) : Bool :=
  match k, s.block with
  | .delta, some b => decide (b.head - b.base = Config.chainLimit)
  | _, _ => false

/-- A LOADING or STAGED object of a kind exists (R4, R6 step 3). -/
def placeTaken (s : State) (k : ObjKind) : Bool :=
  (objectOf s k .loading).isSome || (objectOf s k .staged).isSome

/-- A LOADING object as LOAD_OPEN creates it (R7). -/
def loadingObject (k : ObjKind) (generation size crc effective : Nat) (blocks : List Nat) : ContentObject :=
  ⟨k, generation, size, BitVec.ofNat 32 crc, 0, blocks, none, none, .loading, 0, absentZero effective⟩

/-- LOAD_OPEN (R5 to R7). -/
def loadOpen (tag : Byte) (stream kind generation size crc effective : Nat) (s : State) : State :=
  match loadKind stream kind size effective with
  | none => refuse 0x03 tag .badField s
  | some k =>
    if generationOk s k generation = false then refuse 0x03 tag .badGeneration s
    else if chainFull s k then refuse 0x03 tag .chainFull s
    else if placeTaken s k then refuse 0x03 tag .wrongState s
    else
      match unusedObject s with
      | none => refuse 0x03 tag .noSpace s
      | some id =>
        if poolHas s (ceilDiv size Config.blockSize) then
          answer 0x03 tag .ok (leBytes 1 id)
            (createObject id (ceilDiv size Config.blockSize) (loadingObject k generation size crc effective) s)
        else refuse 0x03 tag .noSpace s

/-- LOAD_OPEN: the request held by the processor (R5 to R7). -/
def execLoadOpen (s : State) : Result :=
  match s.host.processor with
  | .busy tag (.loadOpen stream kind generation size crc effective) =>
    .next (loadOpen tag stream kind generation size crc effective s)
  | _ => .next s

/-! ## LOAD_DATA (R8) -/

/-- LOAD_DATA (R8): the checks in order, then the bytes are written and bytes received rises. -/
def loadData (tag : Byte) (object offset : Nat) (data : List Byte) (s : State) : Result :=
  match look s.objects object with
  | none => .next (refuse 0x04 tag .notFound s)
  | some r =>
    if r.state ≠ .loading then .next (refuse 0x04 tag .wrongState s)
    else if data.length = 0 ∨ 1024 < data.length then .next (refuse 0x04 tag .badLength s)
    else if offset ≠ r.received then .next (refuse 0x04 tag .wrongState s)
    else if r.declaredSize < offset + data.length then .next (refuse 0x04 tag .badLength s)
    else
      match writeObject r offset data s.content with
      | none => .fault (.contentAddress object)
      | some c =>
        .next (answer 0x04 tag .ok (leBytes 4 (offset + data.length))
          { s with content := c, objects := put s.objects object { r with received := offset + data.length } })

/-- LOAD_DATA: the request held by the processor (R8). -/
def execLoadData (s : State) : Result :=
  match s.host.processor with
  | .busy tag (.loadData object offset data) => loadData tag object offset data s
  | _ => .next s

/-! ## LOAD_CLOSE (R9, R10, R27) -/

/-- The content check of an object about to be staged: none for a fare image, which is not parsed (R10, R27). -/
def closeFault (r : ContentObject) (bytes : List Byte) : Option (ContentFault × Nat) :=
  match r.kind with
  | .fareImage => none
  | .base => contentFault .base r.generation r.declaredSize bytes
  | .delta => contentFault .delta r.generation r.declaredSize bytes

/-- The second generation check: a base or delta that a publish has overtaken (R10, step 2). -/
def overtaken (s : State) (r : ContentObject) : Bool :=
  match r.kind with
  | .fareImage => false
  | .base => !aboveOpt r.generation (publishedBase s)
  | .delta => !aboveOpt r.generation (publishedBase s)

/-- An object that passed every check, STAGED with its counts (R10, R28). -/
def stagedObject (r : ContentObject) (bytes : List Byte) : ContentObject :=
  match r.kind with
  | .fareImage => { r with state := .staged }
  | .base => { r with state := .staged, entryCount := some (entryCountOf .base r.declaredSize) }
  | .delta =>
    { r with state := .staged, entryCount := some (entryCountOf .delta r.declaredSize),
             addCount := some (addEntries (blockEntries .delta (entryCountOf .delta r.declaredSize) bytes)) }

/-- A LOAD_CLOSE that frees the object with a status (R9 to R11). -/
def closeFreed (tag : Byte) (object : Nat) (st : Status) (fields : List Byte) (s : State) : State :=
  answer 0x05 tag st fields (freeObject object s)

/-- LOAD_CLOSE of a LOADING object with its bytes (R9, R10). -/
def closeLoading (tag : Byte) (object : Nat) (r : ContentObject) (bytes : List Byte) (s : State) : State :=
  if r.received ≠ r.declaredSize then closeFreed tag object .badLength [] s
  else if crc32 bytes ≠ r.declaredCrc then closeFreed tag object .badCheck [] s
  else
    match closeFault r bytes with
    | some (f, i) => closeFreed tag object .badContent (leBytes 1 f.code ++ leBytes 4 i) s
    | none =>
      if overtaken s r then closeFreed tag object .badGeneration [] s
      else if (objectOf s r.kind .staged).isSome then refuse 0x05 tag .wrongState s
      else
        answer 0x05 tag .ok (leBytes 1 object ++ leBytes 4 (orZero (stagedObject r bytes).entryCount))
          { s with objects := put s.objects object (stagedObject r bytes) }

/-- LOAD_CLOSE: the request held by the processor (R9, R10). -/
def execLoadClose (s : State) : Result :=
  match s.host.processor with
  | .busy tag (.loadClose object) =>
    .next (match look s.objects object with
      | none => refuse 0x05 tag .notFound s
      | some r =>
        if r.state ≠ .loading then refuse 0x05 tag .wrongState s
        else closeLoading tag object r (objectBytes s.content r 0 r.declaredSize) s)
  | _ => .next s

/-! ## DISCARD (R12, R37) -/

/-- The running merge is aborted by a DISCARD of its result (R12, R37). -/
def discardMerge (s : State) : State :=
  match s.merge with
  | none => s
  | some j => retireSources j.sources (failMerge j .discarded j.entriesWritten s)

/-- DISCARD: the request held by the processor (R12, R37). -/
def execDiscard (s : State) : Result :=
  match s.host.processor with
  | .busy tag (.discard object) =>
    .next (match objectState s object with
      | none => refuse 0x06 tag .notFound s
      | some .loading => answer 0x06 tag .ok [] (freeObject object s)
      | some .staged => answer 0x06 tag .ok [] (freeObject object s)
      | some .building => answer 0x06 tag .ok [] (discardMerge s)
      | some .published => refuse 0x06 tag .wrongState s
      | some .retiring => refuse 0x06 tag .wrongState s)
  | _ => .next s

/-! ## PUBLISH (R13 to R18) -/

/-- An object takes a state. -/
def setObjectState (o : Nat) (st : ObjState) (s : State) : State := modObject o (fun r => { r with state := st }) s

/-- The hand-off of a publish that retired objects (R18): slots first, then the objects without a reference, then the roster. -/
def handOff (first : Option Stream) (retired released : List Nat) (s : State) : State :=
  let s1 := retired.foldl (fun t o => retireSlots o t) s
  let s2 := (retired ++ released).foldl (fun t o => retireIfUnused o t) s1
  { publishRoster first s2 with dispatchDue := true }

/-- The reply of a publish carried out: F, B, H and a staged delta that was freed (R13, R157). -/
def publishReply (tag : Byte) (freed : Option (Nat × Nat)) (s : State) : State :=
  answer 0x07 tag .ok
    (leBytes 2 (orZero (publishedFare s)) ++ leBytes 2 (orZero (publishedBase s)) ++ leBytes 2 (orZero (publishedHead s)) ++
      leBytes 1 (orNone (freed.map Prod.fst)) ++ leBytes 2 (orZero (freed.map Prod.snd))) s

/-- The staged fare image becomes current (R14). -/
def publishFare (o : Nat) (s : State) : State :=
  let s1 := { setObjectState o .published s with fare := some ⟨generationOf s o, o⟩ }
  match s.fare with
  | none => handOff (some .fare) [] [] s1
  | some f => handOff none [f.image] [] (setObjectState f.image .retiring s1)

/-- The staged delta is added to the chain (R15). -/
def publishDelta (o : Nat) (b : BlockRecord) (s : State) : State :=
  handOff none [] []
    { setObjectState o .published s with
      block := some { b with head := generationOf s o, chain := b.chain ++ [o] } }

/-- The first base publish since a reset starts the chain (R17). -/
def startChain (o : Nat) (s : State) : State :=
  handOff (some .block) [] []
    { setObjectState o .published s with block := some ⟨generationOf s o, generationOf s o, o, []⟩ }

/-- The deltas of a chain that a base at generation `g` covers (R16, step 2). -/
def coveredDeltas (s : State) (g : Nat) (chain : List Nat) : List Nat := chain.filter (fun d => decide (generationOf s d ≤ g))

/-- The deltas of a chain that stay above a base at generation `g` (R16, step 2). -/
def keptDeltas (s : State) (g : Nat) (chain : List Nat) : List Nat := chain.filter (fun d => decide (g < generationOf s d))

/-- The staged delta that a base at generation `g` makes stale: its id and generation (R16, step 4). -/
def staleDelta (s : State) (g : Nat) : Option (Nat × Nat) :=
  match objectOf s .delta .staged with
  | none => none
  | some d => if generationOf s d ≤ g then some (d, generationOf s d) else none

/-- The stale staged delta is freed (R16, step 4). -/
def freeStale (stale : Option (Nat × Nat)) (s : State) : State :=
  match stale with
  | none => s
  | some p => freeObject p.1 s

/-- A merge whose target a base at generation `g` reaches is aborted; the sources it releases come with it (R16, step 5). -/
def abortReached (g : Nat) (s : State) : State × List Nat :=
  match s.merge with
  | none => (s, [])
  | some j => if j.target ≤ g then (failMerge j .superseded j.entriesWritten s, j.sources) else (s, [])

/-- The staged base rebases the chain (R16). -/
def rebase (o : Nat) (b : BlockRecord) (s : State) : State :=
  let g := generationOf s o
  let retired := b.baseObject :: coveredDeltas s g b.chain
  let s1 := retired.foldl (fun t d => setObjectState d .retiring t) (setObjectState o .published s)
  let s2 := freeStale (staleDelta s g) { s1 with block := some ⟨g, max b.head g, o, keptDeltas s g b.chain⟩ }
  let aborted := abortReached g s2
  handOff none retired aborted.2 aborted.1

/-- PUBLISH_FARE_IMAGE: a PUBLISH request of the fare image, or one whose fields are refused (R13, R14, log entry 26). -/
def execPublishFareImage (s : State) : Result :=
  match s.host.processor with
  | .busy tag (.publish stream kind) =>
    .next (match pairedKind stream kind with
      | none => refuse 0x07 tag .badField s
      | some .fareImage =>
        match objectOf s .fareImage .staged with
        | none => refuse 0x07 tag .notFound s
        | some o => chooseAll (publishReply tag none (publishFare o s))
      | some _ => s)
  | _ => .next s

/-- PUBLISH_DELTA: a PUBLISH request of the delta, or one whose fields are refused (R13, R15, log entry 26). -/
def execPublishDelta (s : State) : Result :=
  match s.host.processor with
  | .busy tag (.publish stream kind) =>
    .next (match pairedKind stream kind with
      | none => refuse 0x07 tag .badField s
      | some .delta =>
        match objectOf s .delta .staged, s.block with
        | none, _ => refuse 0x07 tag .notFound s
        | some _, none => refuse 0x07 tag .badGeneration s
        | some o, some b =>
          if generationOf s o = b.head + 1 then chooseAll (publishReply tag none (publishDelta o b s))
          else refuse 0x07 tag .badGeneration s
      | some _ => s)
  | _ => .next s

/-- PUBLISH_BASE: a PUBLISH request of the base, or one whose fields are refused (R13, R16, R17, log entry 26). -/
def execPublishBase (s : State) : Result :=
  match s.host.processor with
  | .busy tag (.publish stream kind) =>
    .next (match pairedKind stream kind with
      | none => refuse 0x07 tag .badField s
      | some .base =>
        match objectOf s .base .staged with
        | none => refuse 0x07 tag .notFound s
        | some o =>
          match s.block with
          | none => chooseAll (publishReply tag none (startChain o s))
          | some b => chooseAll (publishReply tag (staleDelta s (generationOf s o)) (rebase o b s))
      | some _ => s)
  | _ => .next s

/-! ## LIST_OBJECTS (R21, R158) -/

/-- The record of one object in a LIST_OBJECTS reply (R158). -/
def objectRecord (p : Nat × ContentObject) : List Byte :=
  leBytes 1 p.1 ++ leBytes 1 (16 * p.2.kind.code + p.2.state.code) ++ leBytes 2 p.2.generation ++
    leBytes 3 p.2.declaredSize ++ leBytes 3 p.2.received ++ leBytes 2 p.2.blocks.length ++
    leBytes 3 (orZero p.2.entryCount) ++ leBytes 2 (orZero p.2.addCount) ++ leBytes 1 p.2.refs ++
    leBytes 4 (orZero p.2.effectiveTime)

/-- The ids of the chain deltas in chain order (R3). -/
def chainOf (s : State) : List Nat :=
  match s.block with
  | none => []
  | some b => b.chain

/-- The fields of a LIST_OBJECTS reply (R158). -/
def listFields (s : State) : List Byte :=
  leBytes 2 s.pool.length ++ leBytes 2 (orZero (publishedFare s)) ++ leBytes 2 (orZero (publishedBase s)) ++
    leBytes 2 (orZero (publishedHead s)) ++ leBytes 1 (orNone (s.block.map BlockRecord.baseObject)) ++
    leBytes 1 (chainOf s).length ++ (chainOf s).flatMap (leBytes 1) ++ leBytes 1 s.objects.length ++
    s.objects.flatMap objectRecord

/-- LIST_OBJECTS: the request held by the processor (R21). -/
def execListObjects (s : State) : Result :=
  match s.host.processor with
  | .busy tag .listObjects => .next (answer 0x09 tag .ok (listFields s) s)
  | _ => .next s

end Sys2Proof.Machine
end

