-- ==== Sys2Proof/Machine/Dispatcher.lean ====
section
/-! DEFINITION. The dispatcher of the transfer unit (R86 to R88) and READ_SLOTS (R109, R163). -/

namespace Sys2Proof.Machine

/-! ## The walk (R87) -/

/-- The next item of a validator under its plan (R87). -/
def nextItem (s : State) (v : Validator) : Option Nat :=
  match v.plan with
  | .full => v.work.head?
  | .blockOnly => v.work.find? (fun o => match look s.objects o with
      | none => false
      | some r => r.kind.stream == .block)

/-- What a walk binds: the validator's index and record, its vehicle's index and record, and the object. -/
structure Candidate where
  index : Nat
  validator : Validator
  vehicleIndex : Nat
  vehicle : Vehicle
  object : Nat
  size : Nat
deriving DecidableEq, Repr

/-- The binding conditions on the vehicle, its lane and the validator (R87). -/
def mayBind (s : State) (v : Validator) (veh : Vehicle) : Bool :=
  veh.state == .present && !((s.lane veh.lane).state == .off) && !((s.lane veh.lane).state == .resetting) &&
    v.boundSlot.isNone && decide (boundOn s veh.lane < (s.lane veh.lane).params.slotsPerLane) &&
    decide (veh.boundSlots < s.policy.relayDepth)

/-- The candidate that a ranked entry stands for, none when the walk passes it over (R82, R87). -/
def candidateOf (s : State) (e : RankedEntry) : Option Candidate :=
  match liveEntry s e with
  | none => none
  | some (v, vi, veh) =>
    if mayBind s v veh then
      match nextItem s v with
      | none => none
      | some o =>
        match look s.objects o with
        | none => none
        | some r => if r.state = .published then some ⟨e.index, v, vi, veh, o, r.declaredSize⟩ else none
    else none

/-! ## The binding (R88) -/

/-- The fields of a new binding (R88). -/
def newBinding (s : State) (c : Candidate) : Binding where
  state := .send
  step := .opening
  validator := c.index
  serial := c.validator.serial
  vehicle := c.vehicleIndex
  lane := c.vehicle.lane
  object := c.object
  segmentSize := (s.lane c.vehicle.lane).params.segmentSize
  segmentCount := ceilDiv c.size (s.lane c.vehicle.lane).params.segmentSize
  seqBit := false
  errors := 0
  pendings := 0
  closeAttempts := 0
  segmentsSent := 0
  putTime := none
  fetchTime := 0
  superseded := false

/-- Slot `k` is bound to a candidate (R88); a QUIET lane leaves QUIET, and the lane's idleness is tested (R129). -/
def bindSlot (k : SlotIx) (c : Candidate) (s : State) : State :=
  let s1 := setSlot k { s.slot k with binding := some (newBinding s c) } (takeRef c.object s)
  let s2 := modVehicle c.vehicleIndex (fun v => { v with boundSlots := v.boundSlots + 1 })
    (modValidator c.index (fun v => { v with boundSlot := some k }) s1)
  let s3 := if (s2.lane c.vehicle.lane).state = .quiet then leaveQuiet c.vehicle.lane false s2 else s2
  retestIdle c.vehicle.lane s3

/-- One walk with slot `k` the lowest FREE one: it binds the first candidate, and another walk is due while a slot is FREE; without a
candidate the walks end (R86, R87, log entry 32). -/
def dispatchWalk (k : SlotIx) (s : State) : State :=
  match s.scanner.ranked.findSome? (candidateOf s) with
  | none => { s with dispatchDue := false }
  | some c =>
    let s1 := bindSlot k c s
    chooseAll { s1 with dispatchDue := (freeSlot s1).isSome }

/-- DISPATCH_WALK (R86, R87). Not possible, and without effect, when no event of R86 is waiting; with no FREE slot no walk is made. -/
def execDispatchWalk (s : State) : Result :=
  if s.dispatchDue then
    match freeSlot s with
    | none => .next { s with dispatchDue := false }
    | some k => .next (dispatchWalk k s)
  else .next s

/-! ## READ_SLOTS (R109, R163) -/

/-- Milliseconds since the put time, at most 65,535, 0 without a put (R109); internal time is finer, and a part of a millisecond is rounded
down (log entry 3). -/
def sincePut (now : Time) (b : Binding) : Nat :=
  match b.putTime with
  | none => 0
  | some t => min ((now - t) / 1000) 65535

/-- The record of a bound slot in a READ_SLOTS reply (R109, R163). -/
def boundRecord (s : State) (r : Slot) (b : Binding) : List Byte :=
  leBytes 1 b.state.code ++ leBytes 1 b.step.code ++ leBytes 2 b.step.segment ++ leBytes 2 b.validator ++
    leBytes 4 b.serial ++ leBytes 2 (vehicleNumber s (some b.vehicle)) ++ leBytes 1 b.lane ++ leBytes 1 b.object ++
    leBytes 2 b.segmentSize ++ leBytes 2 b.segmentCount ++ boolByte b.seqBit ++ leBytes 1 b.errors ++ leBytes 1 b.pendings ++
    leBytes 1 b.closeAttempts ++ leBytes 4 b.segmentsSent ++ boolByte b.superseded ++ leBytes 1 r.lastEnd.code ++
    boolByte r.unconfirmed ++ leBytes 2 (sincePut s.now b)

/-- The record of a FREE slot: FREE and the last end condition with its unconfirmed mark, all else 0 (R109, log entry 15). -/
def freeRecord (r : Slot) : List Byte :=
  leBytes 27 0 ++ leBytes 1 r.lastEnd.code ++ boolByte r.unconfirmed ++ leBytes 2 0

/-- The record of a slot (R109). -/
def slotRecord (s : State) (k : SlotIx) : List Byte :=
  match (s.slot k).binding with
  | none => freeRecord (s.slot k)
  | some b => boundRecord s (s.slot k) b

/-- READ_SLOTS: the request held by the processor (R109, R163). -/
def execReadSlots (s : State) : Result :=
  match s.host.processor with
  | .busy tag .readSlots =>
    .next (answer 0x18 tag .ok
      (leBytes 1 s.policy.retryLimit ++ leBytes 1 s.policy.pendingLimit ++ leBytes 1 s.policy.relayDepth ++
        allSlots.flatMap (slotRecord s)) s)
  | _ => .next s

end Sys2Proof.Machine
end

