-- ==== Sys2Proof/Machine/HostLink.lean ====
section
/-! DEFINITION. The host link: resets (R143, R153, R156), the receiver and its buffers (R144 to R147), the request processor (R148,
R149), the transmitter (R150, R152), and the requests IDENTIFY and RESET_PART (R155, R156). -/

namespace Sys2Proof.Machine

/-! ## Resets (R143, R153, R156) -/

/-- POWER_ON: every block in its reset state, STARTED with cause POWER (R153). -/
def execPowerOn (straps : Straps) (s : State) : Result := .next (State.start .power straps false s.pending)

/-- RESET_PIN_ASSERT: the transmit line is held at mark and nothing received is taken (R143, log entry 23). -/
def execResetPinAssert (s : State) : Result :=
  .next { s with resetPin := true, host := { s.host with rxOpen := false, transmitter := none } }

/-- RESET_PIN_RELEASE: every block in its reset state, STARTED with cause PIN (R153). Not possible, and without effect, when the pin is
not asserted. -/
def execResetPinRelease (straps : Straps) (s : State) : Result :=
  if s.resetPin then .next (State.start .pin straps false s.pending) else .next s

/-- RESET_PART_TAKES_EFFECT: every block in its reset state, STARTED with cause REQUEST; the RESET pin is as it stands (R143, R149, R156).
Not possible, and
without effect, before the last byte of the reply to RESET_PART has been sent. -/
def execResetPartTakesEffect (straps : Straps) (s : State) : Result :=
  match s.host.processor with
  | .awaitReset true => .next (State.start .request straps s.resetPin s.pending)
  | _ => .next s

/-! ## The receiver (R144 to R147) -/

/-- The host link changed by `f`. -/
def modHost (f : HostLink → HostLink) (s : State) : State := { s with host := f s.host }

/-- The FREE receive buffer with the lowest number (R144, log entry 31). -/
def freeBuffer (h : HostLink) : Option (Fin 2) := [(0 : Fin 2), 1].find? (fun b => h.buffers.get b == .free)

/-- A frame begins at a start byte (R144). -/
def beginFrame (h : HostLink) : HostLink :=
  match freeBuffer h with
  | none => { h with receiver := .discarding }
  | some b => { h with receiver := .receiving b, buffers := h.buffers.set b .filling }

/-- HOST_FRAME_START: a start byte while HUNTING (R144). Not possible, and without effect, in another state or while the receiver takes
no bytes (R143, R153). -/
def execHostFrameStart (s : State) : Result :=
  if s.host.rxOpen = true ∧ s.host.receiver = .hunting then .next (modHost beginFrame s) else .next s

/-- A frame ends bad: its buffer, if any, becomes FREE, and the receiver is HUNTING (R144, R145). -/
def dropFrame (h : HostLink) : HostLink :=
  match h.receiver with
  | .receiving b => { h with receiver := .hunting, buffers := h.buffers.set b .free }
  | _ => { h with receiver := .hunting }

/-- A bad frame with its cause and length field (R145). -/
def badFrame (cause : LinkCause) (len : Nat) (s : State) : State := submit (.linkError cause len) (modHost dropFrame s)

/-- A frame is in progress. -/
def inFrame (h : HostLink) : Bool :=
  h.rxOpen &&
    match h.receiver with
    | .receiving _ => true
    | .discarding => true
    | .hunting => false
    | .inBreak => false

/-- The CRC-16 of a whole frame, given by its bytes after the start byte, is correct (R145, R165, R170). -/
def hostCrcOk (bs : List Byte) : Bool :=
  decide (field bs (field bs 0 2 + 2) 2 = (crc16 (bs.take (field bs 0 2 + 2))).toNat)

/-- The kind byte of a frame given by its bytes after the start byte (R165). -/
def kindByte (bs : List Byte) : Byte := BitVec.ofNat 8 (field bs 2 1)

/-- The tag byte of a frame given by its bytes after the start byte (R165). -/
def tagByte (bs : List Byte) : Byte := BitVec.ofNat 8 (field bs 3 1)

/-- The request of a whole frame (R165). -/
def frameRequest (bs : List Byte) : RawRequest := ⟨kindByte bs, tagByte bs, (bs.drop 4).take (field bs 0 2 - 2)⟩

/-- The FILLING buffer becomes WAITING with its request (R145, R146). -/
def storeFrame (b : Fin 2) (r : RawRequest) (h : HostLink) : HostLink :=
  { h with receiver := .hunting, buffers := h.buffers.set b (.waiting r), order := h.order ++ [b] }

/-- A whole frame with a correct CRC-16: stored, or an overrun (R145, R146). -/
def goodHostFrame (bs : List Byte) (s : State) : State :=
  match s.host.receiver with
  | .receiving b => modHost (storeFrame b (frameRequest bs)) s
  | _ => submit (.linkOverrun (kindByte bs) (tagByte bs)) (modHost dropFrame s)

/-- HOST_FRAME_END: a frame is taken whole and checked (R145). Not possible, and without effect, outside a frame or for bytes that are
no whole frame. -/
def execHostFrameEnd (bs : List Byte) (s : State) : Result :=
  if inFrame s.host = true ∧ wholeHostFrame bs = true then
    .next (if hostCrcOk bs then goodHostFrame bs s else badFrame .crc (field bs 0 2) s)
  else .next s

/-- The length field of a frame that ended early, 0 when it was not complete (R145). -/
def lengthSoFar (bs : List Byte) : Nat := if bs.length < 2 then 0 else field bs 0 2

/-- HOST_FRAME_ABORT: a length out of range, else a framing error, ends the frame (R144). Not possible, and without effect, outside a
frame or for bytes that end no frame so. -/
def execHostFrameAbort (received : List Byte) (s : State) : Result :=
  if inFrame s.host then
    if badHostLength received then .next (badFrame .length (field received 0 2) s)
    else if partHostFrame received then .next (badFrame .framing (lengthSoFar received) s)
    else .next s
  else .next s

/-- HOST_FRAME_TIMEOUT: more than 50 ms between two bytes ends the frame (R144). Not possible, and without effect, outside a frame or
for bytes that are no part of one. -/
def execHostFrameTimeout (received : List Byte) (s : State) : Result :=
  if inFrame s.host = true ∧ partHostFrame received = true then .next (badFrame .timeout (lengthSoFar received) s) else .next s

/-- HOST_LINK_BREAK: the frame in progress is abandoned, every buffer is FREE and the receiver is in BREAK (R147). Without effect while the
RESET pin is asserted (R143); that it is without effect between a reset and the moment STARTED begins to be sent is log entry 40. -/
def execHostLinkBreak (s : State) : Result :=
  if s.host.rxOpen then
    .next (modHost (fun h => { h with receiver := .inBreak, buffers := Vector.replicate 2 .free, order := [] }) s)
  else .next s

/-- HOST_BREAK_END: the receiver becomes HUNTING (R147). Not possible, and without effect, outside BREAK. -/
def execHostBreakEnd (s : State) : Result :=
  if s.host.receiver = .inBreak then .next (modHost (fun h => { h with receiver := .hunting }) s) else .next s

/-! ## The request processor (R148, R149) -/

/-- The checks of kind and length (R148, R154): the request, or its refusal. A kind outside the requests is answered with kind 0xFF
(R165). -/
def judge (r : RawRequest) : Request :=
  match bodyLengths r.kind.toNat, parseBody r.kind.toNat r.body with
  | some (lo, hi), some q =>
    if lo ≤ r.body.length ∧ r.body.length ≤ hi then q else .rejected (r.kind.toNat + 0x80) .badLength
  | _, _ => .rejected 0xFF .badKind

/-- The oldest WAITING request is taken, its buffer freed, and the processor BUSY with it (R146, R148). -/
def takeRequest (b : Fin 2) (rest : List (Fin 2)) (r : RawRequest) (h : HostLink) : HostLink :=
  { h with buffers := h.buffers.set b .free, order := rest, processor := .busy r.tag (judge r) }

/-- A request refused for its kind or length is completed: its reply is placed and the processor becomes IDLE (R148, R149). -/
def rejectRequest (replyKind : Nat) (tag : Byte) (st : Status) (h : HostLink) : HostLink :=
  { h with replyPlace := some ⟨replyKind, tag, st, []⟩, processor := .idle }

/-- REQUEST_TAKE: the oldest WAITING request is taken (R146, R148); while the processor is BUSY with one that is refused for its kind or
length, the command is that request's completion (log entry 6). Not possible, and without effect, while it is BUSY with another, or IDLE
with the reply place full or no buffer WAITING. -/
def execRequestTake (s : State) : Result :=
  match s.host.processor with
  | .busy tag (.rejected k st) => .next (modHost (rejectRequest k tag st) s)
  | .idle =>
    match s.host.replyPlace, s.host.order with
    | none, b :: rest =>
      match s.host.buffers.get b with
      | .waiting r => .next (modHost (takeRequest b rest r) s)
      | .free => .next s
      | .filling => .next s
    | _, _ => .next s
  | _ => .next s

/-! ## The transmitter (R150, R152) -/

/-- The highest level in a queue; 0 for an empty one. -/
def highestLevel (q : List Report) : Nat := q.foldr (fun r m => max r.body.level m) 0

/-- The report at the head of the queue: of the highest level, the one submitted earliest (R150). -/
def headReport (q : List Report) : Option Report := q.find? (fun r => r.body.level == highestLevel q)

/-- A report is STARTED (R153). -/
def isStarted (r : Report) : Bool := r.body.code == 1

/-- The transmitter begins a report: it leaves the queue and takes and clears the lost mark; with STARTED the receiver begins to take
bytes (R151 to R153). -/
def beginReport (r : Report) (h : HostLink) : HostLink :=
  { h with transmitter := some (.report r h.lostMark), lostMark := false, queue := dropOldest (highestLevel h.queue) h.queue,
           rxOpen := h.rxOpen || isStarted r }

/-- The arbiter's choice (R150). -/
def beginSending (h : HostLink) : HostLink :=
  match h.replyPlace with
  | some r => { h with transmitter := some (.reply r), replyPlace := none }
  | none =>
    match headReport h.queue with
    | none => h
    | some r => beginReport r h

/-- TRANSMIT_START: the arbiter chooses what is sent (R150). Not possible, and without effect, while a frame is being sent, while the
RESET pin is asserted (R143), once the reply to RESET_PART has been sent (R156), or with nothing to send. -/
def execTransmitStart (s : State) : Result :=
  if s.host.transmitter = none ∧ s.resetPin = false ∧ s.host.processor ≠ .awaitReset true then .next (modHost beginSending s)
  else .next s

/-- The frame is the OK reply to RESET_PART (R149, R156). -/
def isResetReply : OutFrame → Bool
  | .reply r => decide (r.kind = 0x82 ∧ r.status = .ok)
  | .report _ _ => false

/-- The last byte of a frame is sent (R149, R150). -/
def endSending (f : OutFrame) (h : HostLink) : HostLink :=
  { h with transmitter := none,
           processor := if h.processor = .awaitReset false ∧ isResetReply f = true then .awaitReset true else h.processor }

/-- TRANSMIT_END: the transmitter becomes IDLE (R150). Not possible, and without effect, while it is IDLE. -/
def execTransmitEnd (s : State) : Result :=
  match s.host.transmitter with
  | none => .next s
  | some f => .next (modHost (endSending f) s)

/-! ## IDENTIFY and RESET_PART (R155, R156) -/

/-- The fields of an IDENTIFY reply (R155). -/
def identityFields (s : State) : List Byte :=
  leBytes 2 640 ++ leBytes 1 1 ++ leBytes 2 Config.blocks ++ leBytes 2 Config.blockSize ++ leBytes 1 Config.objectEntries ++
    leBytes 2 Config.vehicleEntries ++ leBytes 2 Config.validatorEntries ++ leBytes 1 12 ++ leBytes 1 6 ++
    leBytes 1 Config.reportPlaces ++ leBytes 4 (hostRate s.host.straps) ++ boolByte s.clock.unset

/-- IDENTIFY: the request held by the processor (R155). -/
def execIdentify (s : State) : Result :=
  match s.host.processor with
  | .busy tag .identify => .next (answer 0x01 tag .ok (identityFields s) s)
  | _ => .next s

/-- RESET_PART: the OK reply is placed and the processor stays BUSY (R149, R156). -/
def execResetPart (s : State) : Result :=
  match s.host.processor with
  | .busy tag .resetPart =>
    .next (modHost (fun h => { h with replyPlace := some ⟨0x82, tag, .ok, []⟩, processor := .awaitReset false }) s)
  | _ => .next s

end Sys2Proof.Machine
end

