-- ==== Sys2Proof/Machine/LaneRounds.lean ====
section
/-! DEFINITION. The events of lane rounds: preamble, beacon, window, round end, fetch times, frames of relays and the ends of
transactions (R113 to R128, R133, R166). -/

namespace Sys2Proof.Machine

/-! ## The parts of a round (R113, R114, R119, R123) -/

/-- LANE_PREAMBLE_END: the lane becomes ACTIVE and its first round begins (R113, R114). Not possible, and without effect, outside
STARTING. -/
def execLanePreambleEnd (i : LaneIx) (s : State) : Result :=
  if (s.lane i).state = .starting then .next (beginRound i (advanceTo (s.lane i).deadline s)) else .next s

/-- The announce window's length in milliseconds (R119). -/
def windowLength (l : Lane) : Nat :=
  min (if l.arrival || l.doublingDue then 2 * l.inWindow else l.inWindow) (l.inLength / 2)

/-- BEACON_END: the announce window opens, doubled if due (R119). Not possible, and without effect, outside BEACON. -/
def execBeaconEnd (i : LaneIx) (s : State) : Result :=
  if (s.lane i).state = .active ∧ (s.lane i).phase = .beacon then
    let s1 := advanceTo (s.lane i).deadline s
    .next (modLane i (fun l => { l with phase := .window, deadline := s1.now + millis (windowLength l),
                                        windowByArrival := l.arrival, doublingDue := false }) s1)
  else .next s

/-- The window closes: in EDGE mode an arrival flag that doubled it is cleared (R136, R137), and the service phase opens. What has come of a
frame in progress came in the window and is never spent (R119, R128). -/
def closeWindow (i : LaneIx) (s : State) : State :=
  let l := s.lane i
  let s1 := modLane i (fun l => { l with phase := .service, windowByArrival := false,
                                         reception := l.reception.map (fun r => { r with windowBytes := heardBytes s.now l }) }) s
  if l.params.presence = .edge ∧ l.windowByArrival then clearArrival i s1 else s1

/-- WINDOW_CLOSE: the service phase opens with a choice point (R123). Not possible, and without effect, outside WINDOW. -/
def execWindowClose (i : LaneIx) (s : State) : Result :=
  if (s.lane i).state = .active ∧ (s.lane i).phase = .window then
    .next (chooseAll (closeWindow i (advanceTo (s.lane i).deadline s)))
  else .next s

/-- The next round after one that ends: a frame still arriving is cut short (R114, R128). -/
def nextRound (i : LaneIx) (cutShort : Nat) (s : State) : State := beginRound i (modLane i (cutFrame cutShort) s)

/-- The end of a round: a burst counts down, an idle lane with its timer EXPIRED enters QUIET, else the next round begins
(R114, R130, R133, R134). -/
def endRound (i : LaneIx) (cutShort : Nat) (s : State) : State :=
  if 0 < (s.lane i).burst then nextRound i cutShort (modLane i (fun l => { l with burst := l.burst - 1 }) s)
  else if (s.lane i).quietTimer = .expired ∧ laneIdle s i = true then enterQuiet i cutShort s
  else nextRound i cutShort s

/-- ROUND_END (R114). Not possible, and without effect, outside SERVICE or while a transaction is in flight. -/
def execRoundEnd (i : LaneIx) (cutShort : Nat) (s : State) : Result :=
  if (s.lane i).state = .active ∧ (s.lane i).phase = .service ∧ (s.lane i).transaction = none then
    .next (endRound i cutShort (advanceTo (roundEndTime (s.lane i)) s))
  else .next s

/-- FETCH_TIME_REACHED: the lane of an AWAIT slot has a choice point when it is idle (R94, R123). Not possible, and without effect,
for a slot that is not in AWAIT. -/
def execFetchTimeReached (k : SlotIx) (s : State) : Result :=
  match (s.slot k).binding with
  | none => .next s
  | some b => if b.state = .await then .next (chooseAll (advanceTo b.fetchTime s)) else .next s

/-! ## The end of a transaction (R126) -/

/-- A transaction ends: the bytes of its request and of what was received are spent, and it is in flight no longer (R126). -/
def endTransaction (i : LaneIx) (t : Transaction) (received : Nat) (s : State) : State :=
  modLane i (fun l => { l with spent := addSat32 l.spent (t.requestBytes + received), transaction := none,
                               reception := none }) s

/-- The outcome is handed to the slot of the binding that made the transaction, else to none (R106, R125, R126). -/
def handOutcome (o : Owner) (x : SlotOutcome) (s : State) : State :=
  match o with
  | .slot k countOnly => slotOutcome k countOnly x s
  | .answer => s
  | .rollCall => s
  | .ended => s

/-- The outcome that a good frame is for what a transaction expects (R91); codes are those of R167. -/
def replyOutcome (x : Exchange) (m : RelayMessage) : SlotOutcome :=
  match x, m with
  | .put, .taken => .taken
  | .put, .full => .full
  | .probe, .ready => .ready
  | .probe, .busy => .busy
  | .fetchOpen, .verdict c => if c = 1 ∨ c = 3 ∨ c = 4 ∨ c = 7 then .verdict c else .error
  | .fetchSegment, .verdict c => if c = 1 ∨ c = 2 ∨ c = 3 ∨ c = 4 ∨ c = 7 then .verdict c else .error
  | .fetchClose, .verdict c => if c = 3 ∨ c = 5 ∨ c = 6 ∨ c = 7 then .verdict c else .error
  | _, _ => .error

/-- The outcome of a good frame for a transaction: the address, the sequence bit and the kind must agree (R91, R126). -/
def frameOutcome (t : Transaction) (f : RelayFrame) : SlotOutcome :=
  if f.vehicle = t.vehicle ∧ f.position = t.position ∧ f.seqBit = t.seqBit then replyOutcome t.exchange f.message
  else .error

/-- A verdict that is a good reply refreshes the last-heard time of its slot's validator (R40, R60, log entry 27). -/
def verdictRefresh (o : Owner) (x : SlotOutcome) (s : State) : State :=
  match o, x with
  | .slot k _, .verdict _ =>
    match (s.slot k).binding with
    | none => s
    | some b => modValidator b.validator (fun v => { v with lastHeard := s.clock.count }) s
  | _, _ => s

/-- STATE_SEND_END: the last byte of a STATE answer is sent and the arbiter chooses again (R122, R126). Not possible, and without
effect, when no STATE is in flight. -/
def execStateSendEnd (i : LaneIx) (s : State) : Result :=
  match (s.lane i).transaction with
  | none => .next s
  | some t =>
    if t.owner = .answer then .next (chooseAll (endTransaction i t 0 (advanceTo t.sendEnd s))) else .next s

/-- A transaction with a reply ends in an error (R91, R126). -/
def failTransaction (i : LaneIx) (t : Transaction) (received : Nat) (s : State) : State :=
  handOutcome t.owner .error (endTransaction i t received s)

/-- REPLY_TIMEOUT (R126). Not possible, and without effect, without a transaction that waits for its reply, or while a byte of a
reply has come. -/
def execReplyTimeout (i : LaneIx) (s : State) : Result :=
  match (s.lane i).transaction with
  | none => .next s
  | some t =>
    if t.owner = .answer ∨ (s.lane i).reception.isSome then .next s
    else .next (chooseAll (failTransaction i t 0 (advanceTo t.replyBy s)))

/-- TRANSACTION_BUDGET_END with the bytes of the reply so far (R126). Not possible, and without effect, without a transaction that
waits for its reply. -/
def execTransactionBudgetEnd (i : LaneIx) (received : Nat) (s : State) : Result :=
  match (s.lane i).transaction with
  | none => .next s
  | some t =>
    if t.owner = .answer then .next s
    else .next (chooseAll (failTransaction i t received (advanceTo t.budgetEnd s)))

/-! ## Frames of relays (R112, R120, R121, R166) -/

/-- The lane listens: in QUIET, and in the window and service phase except while it sends (R112, R120, R131, log entry 21). -/
def listening (now : Time) (l : Lane) : Bool :=
  match l.state with
  | .quiet => true
  | .active =>
    decide (l.phase = .window ∨ l.phase = .service) &&
      match l.transaction with
      | none => true
      | some t => decide (t.owner ≠ .answer) && decide (t.sendEnd ≤ now)
  | .off => false
  | .starting => false
  | .resetting => false

/-- The end of a frame is taken: the lane listens, or it left QUIET in this very moment, when a frame that ends with the event that woke
the lane is still handled as on any lane (R132, log entry 21). -/
def hearsFrame (now : Time) (l : Lane) : Bool := listening now l || (l.state == .starting && l.leftQuiet == some now)

/-- A frame outside a transaction ends: its bytes of the service phase are spent (R128). -/
def looseFrame (i : LaneIx) (received : Nat) (s : State) : State :=
  modLane i (fun l => { l with spent := spentAfter l received, reception := none }) s

/-- A garbled frame ends: an error for a waiting transaction, else a discard (R112, R120). -/
def garbledFrame (i : LaneIx) (received : Nat) (s : State) : State :=
  match (s.lane i).transaction with
  | none => looseFrame i received s
  | some t => failTransaction i t received s

/-- A good INQUIRE is queued, ignored or discarded (R121). -/
def inquire (i : LaneIx) (f : RelayFrame) (s : State) : State :=
  if vehicleNumberOk f.vehicle = true ∧ f.position ≤ 4 ∧ (s.lane i).answers.length < Config.answerPlaces ∧
      (s.lane i).answers.any (fun a => a.vehicle == f.vehicle && a.position == f.position) = false then
    retestIdle i (modLane i (fun l => { l with answers := l.answers ++ [⟨f.vehicle, f.position, f.seqBit⟩] }) s)
  else s

/-- What a good frame does as itself: an ANNOUNCE goes to the roster, an INQUIRE to the answer queue, and either takes a QUIET lane
out of QUIET (R120, R121, R133). -/
def relayAct (i : LaneIx) (f : RelayFrame) (s : State) : State :=
  match f.message with
  | .announce sleep items =>
    let s1 := announce i f.vehicle sleep items s
    if (s.lane i).state = .quiet then leaveQuietByFrame i s1 else s1
  | .inquire =>
    let s1 := inquire i f s
    if (s.lane i).state = .quiet then leaveQuietByFrame i s1 else s1
  | _ => s

/-- A frame is an ANNOUNCE. -/
def RelayMessage.isAnnounce : RelayMessage → Bool
  | .announce _ _ => true
  | _ => false

/-- The refresh of R43; an ANNOUNCE is refreshed by the roster itself, when it is well formed (R47). -/
def frameRefresh (f : RelayFrame) (s : State) : State := if f.message.isAnnounce then s else refresh f.vehicle s

/-- A good frame: it clears the fault mark (R140), refreshes its vehicle, is the outcome of a waiting transaction, and then acts as
itself (R43, R120, R126). -/
def goodFrameEnd (i : LaneIx) (f : RelayFrame) (received : Nat) (s : State) : State :=
  match (s.lane i).transaction with
  | none =>
    relayAct i f (frameRefresh f (modLane i (fun l => { l with fault := false }) (looseFrame i received s)))
  | some t =>
    let x := frameOutcome t f
    relayAct i f (handOutcome t.owner x (verdictRefresh t.owner x
      (frameRefresh f (modLane i (fun l => { l with fault := false }) (endTransaction i t received s)))))

/-- LANE_FRAME_RECEIVED: a frame ends by its length at a time (R120). Not possible, and without effect, while the lane does not
hear it. -/
def execLaneFrameReceived (i : LaneIx) (bytes : List Byte) (at_ : Time) (s : State) : Result :=
  let s1 := advanceTo at_ s
  if hearsFrame s1.now (s.lane i) then
    match goodFrame i bytes with
    | none => .next (chooseAll (garbledFrame i bytes.length s1))
    | some f => .next (chooseAll (goodFrameEnd i f bytes.length s1))
  else .next s

/-- LANE_FRAME_IDLE_END: the line is idle inside a frame of which some bytes have come (R112). Not possible, and without effect,
while the lane does not hear it. -/
def execLaneFrameIdleEnd (i : LaneIx) (received : Nat) (at_ : Time) (s : State) : Result :=
  let s1 := advanceTo at_ s
  if hearsFrame s1.now (s.lane i) then .next (chooseAll (garbledFrame i received s1)) else .next s

/-- LANE_FRAME_TOO_LONG: the length field of a frame is above 2,297 (R166). Not possible, and without effect, while the lane does
not hear it, or for bytes that are no such frame. -/
def execLaneFrameTooLong (i : LaneIx) (bytes : List Byte) (at_ : Time) (s : State) : Result :=
  let s1 := advanceTo at_ s
  if hearsFrame s1.now (s.lane i) ∧ tooLongLaneFrame bytes = true then .next (chooseAll (garbledFrame i bytes.length s1))
  else .next s

/-- LANE_FRAME_START: a sync byte begins a frame (R166). Not possible, and without effect, while the lane does not listen or a frame
is in progress. -/
def execLaneFrameStart (i : LaneIx) (at_ : Time) (s : State) : Result :=
  let s1 := advanceTo at_ s
  if listening s1.now (s.lane i) ∧ (s.lane i).reception = none then
    .next (modLane i (fun l => { l with reception := some ⟨s1.now, 0, 0⟩ }) s1)
  else .next s

end Sys2Proof.Machine
end

