-- ==== Sys2Proof/Machine/LaneGating.lean ====
section
/-! DEFINITION. Quiet, presence, breaks and gating of lanes (R129 to R142), and the lane requests SET_LANE, READ_LANE, RESET_LANE and
WAKE_LANE (R160, R161). -/

namespace Sys2Proof.Machine

/-! ## Quiet timers (R129, R132) -/

/-- QUIET_DELAY_EXPIRY: a RUNNING timer becomes EXPIRED (R129). Not possible, and without effect, when it is not RUNNING. -/
def execQuietDelayExpiry (i : LaneIx) (s : State) : Result :=
  match (s.lane i).quietTimer with
  | .running t => .next (modLane i (fun l => { l with quietTimer := .expired }) (advanceTo t s))
  | .stopped => .next s
  | .expired => .next s

/-- QUIET_MAXIMUM_EXPIRY: the lane leaves QUIET with a burst (R132, R134). Not possible, and without effect, when the timer does not
run. -/
def execQuietMaximumExpiry (i : LaneIx) (s : State) : Result :=
  match (s.lane i).quietMaxEnd with
  | none => .next s
  | some t => if (s.lane i).state = .quiet then .next (leaveQuiet i true (advanceTo t s)) else .next s

/-! ## Presence inputs (R136, R137) -/

/-- The presence line as taken. -/
def setLine (i : LaneIx) (level : Bool) (s : State) : State := modLane i (fun l => { l with lineAsserted := level }) s

/-- PRESENCE_ASSERT: an asserting edge (R136). Not possible, and without effect, when the line is asserted already. -/
def execPresenceAssert (i : LaneIx) (s : State) : Result :=
  let l := s.lane i
  if l.lineAsserted then .next s
  else if l.state = .off ∨ l.params.presence = .none ∨ l.arrival = true then .next (setLine i true s)
  else .next (setArrival i (setLine i true s))

/-- PRESENCE_DEASSERT: in EDGE_LEVEL mode the arrival flag is cleared (R136). Not possible, and without effect, when the line is
deasserted already. -/
def execPresenceDeassert (i : LaneIx) (s : State) : Result :=
  let l := s.lane i
  if l.lineAsserted then
    if l.state ≠ .off ∧ l.params.presence = .edgeLevel then .next (clearArrival i (setLine i false s))
    else .next (setLine i false s)
  else .next s

/-! ## Breaks (R138 to R140) -/

/-- A break can be received: the lane listens, or its preamble has run out (R140, log entry 21). -/
def hearsBreak (now : Time) (l : Lane) : Bool := listening now l || (l.state == .starting && decide (l.deadline ≤ now))

/-- The break count, saturating (R140). -/
def raiseBreaks (n : Nat) : Nat := if n < 65535 then n + 1 else n

/-- A received break: the count and the fault mark, RESETTING with the slot ends it causes, and LANE_FAULT with the state the lane was in
(R140). The slot ends come before the event's own report (R105). -/
def receiveBreak (i : LaneIx) (received : Nat) (s : State) : State :=
  let l := s.lane i
  let s1 := enterResetting i received (modLane i (fun l => { l with breaks := raiseBreaks l.breaks, fault := true }) s)
  if l.fault then s1 else submit (.laneFault i l.state (raiseBreaks l.breaks)) s1

/-- LANE_BREAK_RECEIVED with the bytes of a frame the break ended (R140). Not possible, and without effect, while the lane does not
listen. -/
def execLaneBreakReceived (i : LaneIx) (received : Nat) (at_ : Time) (s : State) : Result :=
  let s1 := advanceTo at_ s
  if hearsBreak s1.now (s.lane i) then .next (chooseAll (receiveBreak i received s1)) else .next s

/-- LANE_BREAK_END: the break has been sent, the lane enters STARTING and a dispatch walk is due (R86, R139). Not possible, and
without effect, outside RESETTING. -/
def execLaneBreakEnd (i : LaneIx) (s : State) : Result :=
  if (s.lane i).state = .resetting then
    .next { enterStarting i (advanceTo (s.lane i).deadline s) with dispatchDue := true }
  else .next s

/-! ## SET_LANE, switching on and off (R141, R142, R160) -/

/-- A value under a mask bit: the carried one brought into its range, else the one that stands (R154, R160). -/
def masked (mask bit lo hi carried stands : Nat) : Nat := if mask.testBit bit then clampTo lo hi carried else stands

/-- A segment size rounded down to a multiple of 16 (R154). -/
def roundSegment (n : Nat) : Nat := n / 16 * 16

/-- The parameters after the masked fields are written, clamped (R160). Bit n of the mask stands for parameter n in the order of the table,
divisor bit 0 (log entry 36). -/
def writtenParams (mask : Nat) (f : RawLaneFields) (p : LaneParams) : LaneParams where
  divisor := masked mask 0 2 960 f.divisor p.divisor
  roundLength := masked mask 1 50 1000 f.roundLength p.roundLength
  announceWindow := masked mask 2 0 100 f.announceWindow p.announceWindow
  preamble := masked mask 3 1 64 f.preamble p.preamble
  replyTimeout := masked mask 4 5 1000 f.replyTimeout p.replyTimeout
  turnaround := masked mask 5 0 500 f.turnaround p.turnaround
  slotsPerLane := masked mask 6 1 12 f.slotsPerLane p.slotsPerLane
  segmentSize := if mask.testBit 7 then roundSegment (clampTo 64 448 f.segmentSize) else p.segmentSize
  guardMargin := masked mask 8 0 3600 f.guardMargin p.guardMargin
  atRiskLimit := masked mask 9 0 3600 f.atRiskLimit p.atRiskLimit
  crossing := if mask.testBit 10 then crossingOfCode f.crossing else p.crossing
  initialEfficiency := masked mask 11 100 1000 f.initialEfficiency p.initialEfficiency
  quietDelay := masked mask 12 0 60000 f.quietDelay p.quietDelay
  quietMaximum := masked mask 13 1 600 f.quietMaximum p.quietMaximum
  burstRounds := masked mask 14 1 20 f.burstRounds p.burstRounds
  presence := if mask.testBit 15 then presenceOfCode f.presence else p.presence

/-- A value under a mask bit is taken as carried (R154). -/
def unclamped (mask bit lo hi carried : Nat) : Bool := !mask.testBit bit || decide (clampTo lo hi carried = carried)

/-- Every masked field is taken as carried (R154, R160). -/
def noneClamped (mask : Nat) (f : RawLaneFields) : Bool :=
  unclamped mask 0 2 960 f.divisor && unclamped mask 1 50 1000 f.roundLength && unclamped mask 2 0 100 f.announceWindow &&
    unclamped mask 3 1 64 f.preamble && unclamped mask 4 5 1000 f.replyTimeout && unclamped mask 5 0 500 f.turnaround &&
    unclamped mask 6 1 12 f.slotsPerLane &&
    (!mask.testBit 7 || decide (roundSegment (clampTo 64 448 f.segmentSize) = f.segmentSize)) &&
    unclamped mask 8 0 3600 f.guardMargin && unclamped mask 9 0 3600 f.atRiskLimit &&
    unclamped mask 11 100 1000 f.initialEfficiency && unclamped mask 12 0 60000 f.quietDelay &&
    unclamped mask 13 1 600 f.quietMaximum && unclamped mask 14 1 20 f.burstRounds

/-- The fields of SET_LANE that are refused with BAD_FIELD, apart from the lane (R160). -/
def laneFieldsBad (enable mask : Nat) (f : RawLaneFields) : Bool :=
  decide (1 < enable) || (mask.testBit 10 && decide (3 < f.crossing)) || (mask.testBit 15 && decide (2 < f.presence))

/-- The sixteen parameters as a reply carries them (R160, R161). -/
def paramBytes (p : LaneParams) : List Byte :=
  leBytes 2 p.divisor ++ leBytes 2 p.roundLength ++ leBytes 1 p.announceWindow ++ leBytes 1 p.preamble ++
    leBytes 2 p.replyTimeout ++ leBytes 2 p.turnaround ++ leBytes 1 p.slotsPerLane ++ leBytes 2 p.segmentSize ++
    leBytes 2 p.guardMargin ++ leBytes 2 p.atRiskLimit ++ leBytes 1 p.crossing.code ++ leBytes 2 p.initialEfficiency ++
    leBytes 2 p.quietDelay ++ leBytes 2 p.quietMaximum ++ leBytes 1 p.burstRounds ++ leBytes 1 p.presence.code

/-- The reply of SET_LANE: the lane's state, then its parameters (R160). -/
def laneReply (tag : Byte) (i : LaneIx) (asCarried : Bool) (s : State) : State :=
  answer 0x11 tag (if asCarried then .ok else .clamped)
    (leBytes 1 (s.lane i).state.code ++ paramBytes (s.lane i).params) s

/-- The arrival flag after a change of the presence mode (R136). -/
def applyPresenceMode (i : LaneIx) (old : PresenceMode) (s : State) : State :=
  let l := s.lane i
  if l.params.presence = old then s
  else
    match l.params.presence with
    | .none => clearArrival i s
    | .edge => retestIdle i s
    | .edgeLevel =>
      if l.lineAsserted then (if l.arrival then retestIdle i s else setArrival i s) else clearArrival i s

/-- SET_LANE on a switched-on lane (R111, R136, R160). -/
def writeLane (i : LaneIx) (mask : Nat) (f : RawLaneFields) (s : State) : State :=
  let old := (s.lane i).params
  let new := writtenParams mask f old
  let s1 := modLane i (fun l => { l with params := new }) s
  applyPresenceMode i old.presence { s1 with dispatchDue := s1.dispatchDue || decide (new.slotsPerLane ≠ old.slotsPerLane) }

/-- The record of a lane as it is switched on with parameters (R69, R111, R136, R142). -/
def Lane.switchedOn (p : LaneParams) (line : Bool) : Lane :=
  { Lane.off line with
    state := .starting, params := p, efficiency := p.initialEfficiency, rate := laneRate p.divisor,
    inLength := p.roundLength, inWindow := p.announceWindow, arrival := p.presence == .edgeLevel && line }

/-- A scan that is RUNNING has no inputs of a lane that is switched on (R67, R142). -/
def withoutInputs (i : LaneIx) (c : Scanner) : Scanner :=
  { c with run := c.run.map (fun r => { r with inputs := r.inputs.set i none }) }

/-- A lane is switched on (R142): defaults, then the fields; it enters STARTING, a RUNNING scan has no inputs of it (R67), and a dispatch
walk is due (R86). -/
def switchOn (i : LaneIx) (mask : Nat) (f : RawLaneFields) (s : State) : State :=
  { enterStarting i
      (modLane i (fun l => Lane.switchedOn (writtenParams mask f LaneParams.defaults) l.lineAsserted) s) with
    scanner := withoutInputs i s.scanner, dispatchDue := true }

/-- A lane is switched OFF, in the order of R141. -/
def switchOff (i : LaneIx) (s : State) : State :=
  let s1 := modLane i (fun l => { l with transaction := none }) s
  let s2 := departLane i (endLaneSlots i .laneOff s1)
  modLane i (fun l => Lane.off l.lineAsserted) s2

/-- SET_LANE with enable set, on an OFF lane (R142). -/
def laneOn (tag : Byte) (i : LaneIx) (mask : Nat) (f : RawLaneFields) (s : State) : State :=
  chooseAll (laneReply tag i (noneClamped mask f) (switchOn i mask f s))

/-- SET_LANE with enable clear, on a switched-on lane (R141). -/
def laneOffRequest (tag : Byte) (i : LaneIx) (s : State) : State := chooseAll (laneReply tag i true (switchOff i s))

/-- SET_LANE: every SET_LANE request that the processor holds (R160, log entry 26). -/
def execSetLane (s : State) : Result :=
  match s.host.processor with
  | .busy tag (.setLane lane enable mask f) =>
    .next (match laneOf lane with
      | none => refuse 0x11 tag .badField s
      | some i =>
        if laneFieldsBad enable mask f then refuse 0x11 tag .badField s
        else if enable = 1 then
          if (s.lane i).state = .off then laneOn tag i mask f s
          else chooseAll (laneReply tag i (noneClamped mask f) (writeLane i mask f s))
        else if (s.lane i).state = .off then refuse 0x11 tag .laneOff s
        else laneOffRequest tag i s)
  | _ => .next s

/-- SWITCH_LANE_ON: a SET_LANE request with enable set that names an OFF lane, or one whose fields are refused (R142, R160, log entry
26). -/
def execSwitchLaneOn (s : State) : Result :=
  match s.host.processor with
  | .busy tag (.setLane lane enable mask f) =>
    .next (match laneOf lane with
      | none => refuse 0x11 tag .badField s
      | some i =>
        if laneFieldsBad enable mask f then refuse 0x11 tag .badField s
        else if enable = 1 ∧ (s.lane i).state = .off then laneOn tag i mask f s
        else s)
  | _ => .next s

/-- SWITCH_LANE_OFF: a SET_LANE request with enable clear, refused for a lane that is OFF already (R141, R160, log entry 26). -/
def execSwitchLaneOff (s : State) : Result :=
  match s.host.processor with
  | .busy tag (.setLane lane enable mask f) =>
    .next (match laneOf lane with
      | none => refuse 0x11 tag .badField s
      | some i =>
        if laneFieldsBad enable mask f then refuse 0x11 tag .badField s
        else if enable = 0 then
          if (s.lane i).state = .off then refuse 0x11 tag .laneOff s else laneOffRequest tag i s
        else s)
  | _ => .next s

/-! ## READ_LANE, RESET_LANE, WAKE_LANE (R135, R138, R161) -/

/-- The fields of a READ_LANE reply (R161); the phase is carried as 0 while not ACTIVE (log entry 16). -/
def laneRecord (s : State) (i : LaneIx) : List Byte :=
  let l := s.lane i
  leBytes 1 l.state.code ++ leBytes 1 l.phase.code ++ paramBytes l.params ++ leBytes 2 l.efficiency ++ leBytes 4 l.useful ++
    leBytes 4 l.spent ++ leBytes 1 l.answers.length ++ leBytes 1 l.acks.length ++ leBytes 1 l.wake.length ++
    l.wake.flatMap (leBytes 2) ++ boolByte l.arrival ++ boolByte l.lineAsserted ++ leBytes 1 l.quietTimer.code ++
    boolByte l.frameWake ++ leBytes 1 l.burst ++ boolByte l.fault ++ leBytes 2 l.breaks ++ leBytes 1 (boundOn s i) ++
    leBytes 1 l.lastServed

/-- READ_LANE: the request held by the processor (R161). -/
def execReadLane (s : State) : Result :=
  match s.host.processor with
  | .busy tag (.readLane lane) =>
    .next (match laneOf lane with
      | none => refuse 0x12 tag .badField s
      | some i =>
        if (s.lane i).state = .off then refuse 0x12 tag .laneOff s else answer 0x12 tag .ok (laneRecord s i) s)
  | _ => .next s

/-- RESET_LANE on a lane that is not RESETTING, with the bytes received so far of a frame in progress (R138). -/
def resetLane (i : LaneIx) (s : State) : State := enterResetting i (heardBytes s.now (s.lane i)) s

/-- The fault mark is cleared (R140). -/
def clearFault (i : LaneIx) (s : State) : State := modLane i (fun l => { l with fault := false }) s

/-- RESET_LANE: the request held by the processor (R138, R140, R161). -/
def execResetLane (s : State) : Result :=
  match s.host.processor with
  | .busy tag (.resetLane lane) =>
    .next (match laneOf lane with
      | none => refuse 0x13 tag .badField s
      | some i =>
        match (s.lane i).state with
        | .off => refuse 0x13 tag .laneOff s
        | .resetting => answer 0x13 tag .ok (leBytes 1 0) (clearFault i s)
        | _ => chooseAll (answer 0x13 tag .ok (leBytes 1 (boundOn s i)) (clearFault i (resetLane i s))))
  | _ => .next s

/-- WAKE_LANE on a STARTING or ACTIVE lane: the timer is STOPPED and the frame-wake mark cleared (R135, log entry 20). -/
def restartQuiet (i : LaneIx) (s : State) : State :=
  modLane i (fun l => { l with quietTimer := .stopped, frameWake := false }) s

/-- WAKE_LANE: the request held by the processor (R135, R161). The reply carries the lane's state as it stands when the request
is carried out, just before its effect (log entry 41). -/
def execWakeLane (s : State) : Result :=
  match s.host.processor with
  | .busy tag (.wakeLane lane) =>
    .next (match laneOf lane with
      | none => refuse 0x14 tag .badField s
      | some i =>
        let reply := answer 0x14 tag .ok (leBytes 1 (s.lane i).state.code)
        match (s.lane i).state with
        | .off => refuse 0x14 tag .laneOff s
        | .quiet => reply (leaveQuiet i false s)
        | .starting => reply (restartQuiet i s)
        | .active => reply (restartQuiet i s)
        | .resetting => reply s)
  | _ => .next s

end Sys2Proof.Machine
end

