-- ==== Sys2Proof/Machine/Policy.lean ====
section
/-! DEFINITION. SET_POLICY (R108, R162). -/

namespace Sys2Proof.Machine

/-- The policy after the masked fields are written, clamped (R162). Bit n of the mask stands for value n in the order of the table, retry
limit bit 0 (log entry 37). -/
def writtenPolicy (mask : Nat) (f p : Policy) : Policy where
  retryLimit := masked mask 0 1 7 f.retryLimit p.retryLimit
  pendingLimit := masked mask 1 1 15 f.pendingLimit p.pendingLimit
  urgentLag := masked mask 2 1 32 f.urgentLag p.urgentLag
  scanPeriod := masked mask 3 1 60 f.scanPeriod p.scanPeriod
  silenceLimit := masked mask 4 10 3600 f.silenceLimit p.silenceLimit
  wakeMaximum := masked mask 5 1 50 f.wakeMaximum p.wakeMaximum
  relayDepth := masked mask 6 1 2 f.relayDepth p.relayDepth
  reportThreshold := masked mask 7 0 3 f.reportThreshold p.reportThreshold
  depotNumber := masked mask 8 0 65535 f.depotNumber p.depotNumber

/-- Every masked policy field is taken as carried (R154, R162). -/
def policyUnclamped (mask : Nat) (f : Policy) : Bool :=
  unclamped mask 0 1 7 f.retryLimit && unclamped mask 1 1 15 f.pendingLimit && unclamped mask 2 1 32 f.urgentLag &&
    unclamped mask 3 1 60 f.scanPeriod && unclamped mask 4 10 3600 f.silenceLimit && unclamped mask 5 1 50 f.wakeMaximum &&
    unclamped mask 6 1 2 f.relayDepth && unclamped mask 7 0 3 f.reportThreshold && unclamped mask 8 0 65535 f.depotNumber

/-- The nine policy values as a reply carries them (R162). -/
def policyBytes (p : Policy) : List Byte :=
  leBytes 1 p.retryLimit ++ leBytes 1 p.pendingLimit ++ leBytes 1 p.urgentLag ++ leBytes 1 p.scanPeriod ++
    leBytes 2 p.silenceLimit ++ leBytes 1 p.wakeMaximum ++ leBytes 1 p.relayDepth ++ leBytes 1 p.reportThreshold ++
    leBytes 2 p.depotNumber

/-- A slot whose errors are at or above a new retry limit ends as if its last error had reached it (R108). -/
def endAtLimit (limit : Nat) (s : State) (k : SlotIx) : State :=
  match (s.slot k).binding with
  | none => s
  | some b => if limit ≤ b.errors then endExhausted k b s else s

/-- The policy is written: first the slots at a lowered retry limit end, their reports under the threshold that stood before; a
changed relay depth makes a dispatch walk due (R86, R108, R162). -/
def setPolicy (p : Policy) (s : State) : State :=
  let s1 := allSlots.foldl (endAtLimit p.retryLimit) s
  { s1 with policy := p, dispatchDue := s1.dispatchDue || decide (p.relayDepth ≠ s.policy.relayDepth) }

/-- SET_POLICY: the request held by the processor (R162). -/
def execSetPolicy (s : State) : Result :=
  match s.host.processor with
  | .busy tag (.setPolicy mask f) =>
    .next (if 512 ≤ mask then refuse 0x15 tag .badField s
    else
      let p := writtenPolicy mask f s.policy
      chooseAll (answer 0x15 tag (if policyUnclamped mask f then .ok else .clamped) (policyBytes p) (setPolicy p s)))
  | _ => .next s

end Sys2Proof.Machine
end

