-- ==== Sys2Proof/Machine/Scanner.lean ====
section
/-! DEFINITION. The yard clock (R63, R64) and the slack scanner: scan start, the arithmetic of one entry, flags and crossings, the
ranked list and its reading (R65 to R81, R84). -/

namespace Sys2Proof.Machine

/-! ## The yard clock (R63, R64) -/

/-- The count after one second, held at its largest value (R63). -/
def countOn (n : Nat) : Nat := if n < Config.max32 then n + 1 else n

/-- YARD_CLOCK_TICK: the count goes on by 1 at the end of its second, and a new value makes the silence check (R44, R63). -/
def execYardClockTick (s : State) : Result :=
  let s1 := advanceTo s.clock.nextSecond s
  let s2 := { s1 with clock := { s.clock with count := countOn s.clock.count,
                                              nextSecond := s.clock.nextSecond + millis 1000 } }
  .next (chooseAll (if countOn s.clock.count = s.clock.count then s2 else silenceCheckAll s2))

/-- The first SET_TIME after a reset restamps every last-heard time (R44). -/
def restamp (t : Nat) (s : State) : State :=
  { s with vehicles := s.vehicles.map (fun p => (p.1, { p.2 with lastHeard := t })),
           validators := s.validators.map (fun p => (p.1, { p.2 with lastHeard := t })) }

/-- The clock is set (R44, R64). -/
def setTime (t : Nat) (s : State) : State :=
  let s1 := { s with clock := ⟨t, false, s.now + millis 1000⟩ }
  let s2 := if s.clock.unset then restamp t s1 else s1
  if t = s.clock.count then s2 else silenceCheckAll s2

/-- SET_TIME: the request held by the processor (R64, R163). -/
def execSetTime (s : State) : Result :=
  match s.host.processor with
  | .busy tag (.setTime t) =>
    .next (chooseAll (answer 0x16 tag .ok (leBytes 4 s.clock.count ++ boolByte s.clock.unset) (setTime t s)))
  | _ => .next s

/-! ## Scan start (R65 to R68) -/

/-- The efficiency after one sample (R68). -/
def newEfficiency (e useful spent : Nat) : Nat := clampTo 100 1000 ((3 * e + 1000 * useful / spent) / 4)

/-- A lane's efficiency at a scan start (R68). -/
def sampled (l : Lane) : Lane :=
  if l.state = .off then l
  else if 4096 ≤ l.spent then { l with efficiency := newEfficiency l.efficiency l.useful l.spent, useful := 0, spent := 0 }
  else l

/-- The inputs a scan takes from a lane (R67). -/
def laneInputs (l : Lane) : Option LaneInputs :=
  if l.state = .off then none
  else some ⟨l.params.divisor, l.params.segmentSize, l.params.guardMargin, l.params.atRiskLimit, l.params.crossing,
    l.efficiency⟩

/-- A scan starts (R67), and the scan-period timer restarts (R65). -/
def startScan (s : State) : State :=
  let lanes := s.lanes.map sampled
  { s with
    lanes := lanes,
    scanner := { s.scanner with
      run := some ⟨s.clock.count, s.clock.unset, s.policy.urgentLag, lanes.map laneInputs, 0, [], 0, 0⟩,
      periodEnd := s.now + millis (1000 * s.policy.scanPeriod) } }

/-- SCAN_PERIOD_EXPIRY: the scan-period timer expires and a scan starts (R65). Not possible, and without effect, while RUNNING. -/
def execScanPeriodExpiry (s : State) : Result :=
  match s.scanner.run with
  | some _ => .next s
  | none => .next (startScan (advanceTo s.scanner.periodEnd s))

/-- SCAN_NOW: the request held by the processor (R66). -/
def execScanNow (s : State) : Result :=
  match s.host.processor with
  | .busy tag .scanNow =>
    match s.scanner.run with
    | some _ => .next (refuse 0x17 tag .busy s)
    | none => .next (answer 0x17 tag .ok [] (startScan s))
  | _ => .next s

/-! ## The arithmetic of one entry (R72 to R76) -/

/-- The declared sizes of a list of objects (R72). -/
def sizesOf (s : State) (ids : List Nat) : List Nat :=
  ids.map (fun o => match look s.objects o with
    | none => 0
    | some r => r.declaredSize)

/-- The wire bytes of objects of given sizes at a segment size (R72). -/
def wireBytes (segment : Nat) (sizes : List Nat) : Nat :=
  sizes.sum + 24 * (sizes.map (fun z => ceilDiv z segment)).sum + 96 * sizes.length

/-- The airtime of wire bytes at a rate and an efficiency (R73). -/
def airtime (wire rate efficiency : Nat) : Nat := min (ceilDiv (wire * 10000) (rate * efficiency)) 65535

/-- A slack brought into its range (R74). -/
def clampSlack (x : Int) : Int := if x < -32768 then -32768 else if 32767 < x then 32767 else x

/-- The slack of an airtime (R74). -/
def slackOf (departure : Option Nat) (unset : Bool) (time guardMargin air : Nat) : Int :=
  match departure with
  | none => 32767
  | some d => if unset then 32767 else clampSlack ((d : Int) - time - guardMargin - air)

/-- An object of the BLOCK stream. -/
def isBlock (s : State) (o : Nat) : Bool :=
  match look s.objects o with
  | none => false
  | some r => r.kind.stream == .block

/-- The slack of a list of items under a scan's inputs (R72 to R74). -/
def itemSlack (s : State) (run : ScanRun) (inp : LaneInputs) (departure : Option Nat) (ids : List Nat) : Int :=
  slackOf departure run.unset run.time inp.guardMargin
    (airtime (wireBytes inp.segmentSize (sizesOf s ids)) (laneRate inp.divisor) inp.efficiency)

/-- The plan and the stored slack of a work list (R75). -/
def planOf (s : State) (run : ScanRun) (inp : LaneInputs) (departure : Option Nat) (work : List Nat) : Plan × Int :=
  let full := itemSlack s run inp departure work
  if full < 0 ∧ work.any (isBlock s) = true ∧ work.all (isBlock s) = false then
    (.blockOnly, itemSlack s run inp departure (work.filter (isBlock s)))
  else (.full, full)

/-- The class of an entry (R76). -/
def classOf (lag urgentLag : Nat) (slack : Int) : Nat := if urgentLag ≤ lag then 0 else if 0 ≤ slack then 1 else 2

/-- The sign of a slack (R78). -/
def signOf (slack : Int) : Sign := if 0 ≤ slack then .nonneg else .neg

/-! ## Flags and crossings (R77, R78) -/

/-- A falling crossing (R78). -/
def fallen (before after : Sign) : Bool := before == .nonneg && after == .neg

/-- A rising crossing (R78). -/
def risen (before after : Sign) : Bool := before == .neg && after == .nonneg

/-- A crossing mode reports falling crossings (R78). -/
def CrossingMode.falls : CrossingMode → Bool
  | .none => false
  | .falling => true
  | .rising => false
  | .both => true

/-- A crossing mode reports rising crossings (R78). -/
def CrossingMode.rises : CrossingMode → Bool
  | .none => false
  | .falling => false
  | .rising => true
  | .both => true

/-- The figures of a computed entry: plan, slack, class and sign stored, AT_RISK and NEG_CROSSED set (R75 to R78). -/
def figured (run : ScanRun) (inp : LaneInputs) (v : Validator) (p : Plan × Int) : Validator :=
  { v with plan := p.1, slack := some p.2, cls := classOf v.lag run.urgentLag p.2, prevSign := signOf p.2,
           flags := { v.flags with
             atRisk := v.flags.atRisk || decide (p.2 < inp.atRiskLimit),
             negCrossed := v.flags.negCrossed || fallen v.prevSign (signOf p.2) } }

/-- The reports of a computed entry: AT_RISK, then a crossing (R77, R78). -/
def turnReports (inp : LaneInputs) (before after : Validator) (slack : Int) (veh : Vehicle) : List ReportBody :=
  let r : SlackReport := ⟨after.serial, veh.number, veh.lane, slack, after.plan, after.lag, veh.departure⟩
  (if !before.flags.atRisk && after.flags.atRisk then [.atRisk r after.cls] else []) ++
  (if fallen before.prevSign after.prevSign && inp.crossing.falls then [.slackNegative r] else []) ++
  (if risen before.prevSign after.prevSign && inp.crossing.rises then [.slackRecovered r] else [])

/-- An entry that gets no slack (R71). -/
def unfigured (v : Validator) : Validator := { v with slack := none, prevSign := .none, plan := .full, cls := 1 }

/-- What a computed entry's turn reads: its vehicle, which is not DEPARTED, and its lane's inputs; none when the entry gets no
slack (R71). -/
def turnInputs (s : State) (run : ScanRun) (v : Validator) : Option (Vehicle × LaneInputs) :=
  if v.work = [] then none
  else
    match v.vehicle.bind (look s.vehicles) with
    | none => none
    | some veh =>
      if veh.state = .departed then none
      else
        match run.inputs.get veh.lane with
        | none => none
        | some inp => some (veh, inp)

/-- The ranked entry of a computed entry (R79). -/
def rankedEntry (i : Nat) (v : Validator) (slack : Int) (veh : Vehicle) : RankedEntry :=
  ⟨i, v.serial, veh.lane, v.cls, slack, v.plan⟩

/-- The run after a turn. -/
def setRun (run : ScanRun) (s : State) : State := { s with scanner := { s.scanner with run := some run } }

/-- The turn of an entry in use (R70 to R79). -/
def entryTurn (i : Nat) (v : Validator) (run : ScanRun) (s : State) : State :=
  match turnInputs s run v with
  | none =>
    setRun { run with cursor := i + 1, walked := run.walked + 1 } { s with validators := put s.validators i (unfigured v) }
  | some (veh, inp) =>
    let p := planOf s run inp veh.departure v.work
    let v' := figured run inp v p
    let added := rankable veh.state && !v.flags.rejected
    submitAll (turnReports inp v v' p.2 veh)
      (setRun { run with cursor := i + 1, walked := run.walked + 1, computed := run.computed + 1,
                         newList := if added then run.newList ++ [rankedEntry i v' p.2 veh] else run.newList }
        { s with validators := put s.validators i v' })

/-- No entry in use has a number from `first` up to, not including, `stop`. -/
def noEntryBetween (s : State) (first stop : Nat) : Bool :=
  (keys s.validators).all (fun j => decide (j < first) || decide (stop ≤ j))

/-- SCAN_ENTRY_TURN: the turn of the entry at index `i`, unused entries before it being skipped (R70, log entry 24). Not possible,
and without effect, when IDLE, when its turn has passed, or when an entry in use is to be walked before it. -/
def execScanEntryTurn (i : Nat) (s : State) : Result :=
  match s.scanner.run with
  | none => .next s
  | some run =>
    if run.cursor ≤ i ∧ i < Config.validatorEntries ∧ noEntryBetween s run.cursor i then
      match look s.validators i with
      | none => .next (setRun { run with cursor := i + 1 } s)
      | some v => .next (entryTurn i v run s)
    else .next s

/-! ## The ranked list (R79 to R81, R84) -/

/-- The order of the ranked list (R80). -/
def rankedBefore (a b : RankedEntry) : Bool :=
  if a.cls ≠ b.cls then decide (a.cls < b.cls)
  else if a.slack ≠ b.slack then (if a.cls = 2 then decide (b.slack < a.slack) else decide (a.slack < b.slack))
  else decide (a.index ≤ b.index)

/-- An entry placed into a list in the order of R80. -/
def insertRanked (e : RankedEntry) : List RankedEntry → List RankedEntry
  | [] => [e]
  | x :: xs => if rankedBefore e x then e :: x :: xs else x :: insertRanked e xs

/-- The new list in the order of R80. -/
def rankedOrder (l : List RankedEntry) : List RankedEntry := l.foldr insertRanked []

/-- The SCAN_DONE report of a run (R79, R81). -/
def scanDone (run : ScanRun) : ReportBody :=
  .scanDone run.walked run.computed run.newList.length (run.newList.countP (fun e => e.cls == 0))
    (run.newList.countP (fun e => e.cls == 1)) (run.newList.countP (fun e => e.cls == 2))
    (run.newList.countP (fun e => e.plan == .blockOnly))

/-- SCAN_COMPLETE: the new list replaces the ranked list, the scanner becomes IDLE and SCAN_DONE is submitted (R81). Not possible,
and without effect, when IDLE or when an entry in use has still to be walked. -/
def execScanComplete (s : State) : Result :=
  match s.scanner.run with
  | none => .next s
  | some run =>
    if noEntryBetween s run.cursor Config.validatorEntries then
      .next (submit (scanDone run)
        { s with scanner := { s.scanner with run := none, ranked := rankedOrder run.newList, completedAt := s.clock.count },
                 dispatchDue := true })
    else .next s

/-- A ranked entry in a READ_RANKING reply (R159). -/
def rankedRecord (e : RankedEntry) : List Byte :=
  leBytes 2 e.index ++ leBytes 4 e.serial ++ leBytes 1 e.lane ++ leBytes 1 e.cls ++ int16Bytes e.slack ++ leBytes 1 e.plan.code

/-- The entries of a READ_RANKING reply with the clamped position and count (R84). -/
def rankedPart (s : State) (start count : Nat) : List RankedEntry :=
  (s.scanner.ranked.drop (clampTo 0 1023 start)).take (clampTo 1 64 count)

/-- The fields of a READ_RANKING reply (R84, R159). -/
def rankingFields (s : State) (start count : Nat) : List Byte :=
  leBytes 2 s.scanner.ranked.length ++ leBytes 4 s.scanner.completedAt ++ boolByte s.scanner.run.isSome ++
    leBytes 1 (rankedPart s start count).length ++ (rankedPart s start count).flatMap rankedRecord

/-- READ_RANKING: the request held by the processor (R84). -/
def execReadRanking (s : State) : Result :=
  match s.host.processor with
  | .busy tag (.readRanking start count) =>
    .next (answer 0x0F tag (if clampTo 0 1023 start = start ∧ clampTo 1 64 count = count then .ok else .clamped)
      (rankingFields s start count) s)
  | _ => .next s

end Sys2Proof.Machine
end

