-- ==== Sys2Proof/Machine/Dispatch.lean ====
section
/-! DEFINITION. The meaning of every command: one arm per row of the table. -/

namespace Sys2Proof.Machine

def exec (i : Instr) (s : State) : Host.Outcome State Fault Refusal :=
  match i with
  | .powerOn straps => Sys2Proof.Machine.execPowerOn straps s
  | .resetPinAssert => Sys2Proof.Machine.execResetPinAssert s
  | .resetPinRelease straps => Sys2Proof.Machine.execResetPinRelease straps s
  | .resetPartTakesEffect straps => Sys2Proof.Machine.execResetPartTakesEffect straps s
  | .hostFrameStart => Sys2Proof.Machine.execHostFrameStart s
  | .hostFrameEnd bytes => Sys2Proof.Machine.execHostFrameEnd bytes s
  | .hostFrameAbort received => Sys2Proof.Machine.execHostFrameAbort received s
  | .hostFrameTimeout received => Sys2Proof.Machine.execHostFrameTimeout received s
  | .hostLinkBreak => Sys2Proof.Machine.execHostLinkBreak s
  | .hostBreakEnd => Sys2Proof.Machine.execHostBreakEnd s
  | .requestTake => Sys2Proof.Machine.execRequestTake s
  | .transmitStart => Sys2Proof.Machine.execTransmitStart s
  | .transmitEnd => Sys2Proof.Machine.execTransmitEnd s
  | .identify => Sys2Proof.Machine.execIdentify s
  | .resetPart => Sys2Proof.Machine.execResetPart s
  | .loadOpen => Sys2Proof.Machine.execLoadOpen s
  | .loadData => Sys2Proof.Machine.execLoadData s
  | .loadClose => Sys2Proof.Machine.execLoadClose s
  | .discard => Sys2Proof.Machine.execDiscard s
  | .publishFareImage => Sys2Proof.Machine.execPublishFareImage s
  | .publishDelta => Sys2Proof.Machine.execPublishDelta s
  | .publishBase => Sys2Proof.Machine.execPublishBase s
  | .merge => Sys2Proof.Machine.execMerge s
  | .mergeProgress entries => Sys2Proof.Machine.execMergeProgress entries s
  | .mergeComplete => Sys2Proof.Machine.execMergeComplete s
  | .mergeTooLarge => Sys2Proof.Machine.execMergeTooLarge s
  | .listObjects => Sys2Proof.Machine.execListObjects s
  | .expectVehicle => Sys2Proof.Machine.execExpectVehicle s
  | .setDeparture => Sys2Proof.Machine.execSetDeparture s
  | .departVehicle => Sys2Proof.Machine.execDepartVehicle s
  | .readVehicle => Sys2Proof.Machine.execReadVehicle s
  | .readValidator => Sys2Proof.Machine.execReadValidator s
  | .readRanking => Sys2Proof.Machine.execReadRanking s
  | .clearFlags => Sys2Proof.Machine.execClearFlags s
  | .setLane => Sys2Proof.Machine.execSetLane s
  | .switchLaneOn => Sys2Proof.Machine.execSwitchLaneOn s
  | .switchLaneOff => Sys2Proof.Machine.execSwitchLaneOff s
  | .readLane => Sys2Proof.Machine.execReadLane s
  | .resetLane => Sys2Proof.Machine.execResetLane s
  | .wakeLane => Sys2Proof.Machine.execWakeLane s
  | .setPolicy => Sys2Proof.Machine.execSetPolicy s
  | .setTime => Sys2Proof.Machine.execSetTime s
  | .scanNow => Sys2Proof.Machine.execScanNow s
  | .readSlots => Sys2Proof.Machine.execReadSlots s
  | .yardClockTick => Sys2Proof.Machine.execYardClockTick s
  | .silenceLimitReached vehicle => Sys2Proof.Machine.execSilenceLimitReached vehicle s
  | .scanPeriodExpiry => Sys2Proof.Machine.execScanPeriodExpiry s
  | .scanEntryTurn entry => Sys2Proof.Machine.execScanEntryTurn entry s
  | .scanComplete => Sys2Proof.Machine.execScanComplete s
  | .dispatchWalk => Sys2Proof.Machine.execDispatchWalk s
  | .lanePreambleEnd lane => Sys2Proof.Machine.execLanePreambleEnd lane s
  | .roundEnd lane cutShort => Sys2Proof.Machine.execRoundEnd lane cutShort s
  | .beaconEnd lane => Sys2Proof.Machine.execBeaconEnd lane s
  | .windowClose lane => Sys2Proof.Machine.execWindowClose lane s
  | .fetchTimeReached slot => Sys2Proof.Machine.execFetchTimeReached slot s
  | .stateSendEnd lane => Sys2Proof.Machine.execStateSendEnd lane s
  | .laneFrameReceived lane bytes at_ => Sys2Proof.Machine.execLaneFrameReceived lane bytes at_ s
  | .laneFrameIdleEnd lane received at_ => Sys2Proof.Machine.execLaneFrameIdleEnd lane received at_ s
  | .replyTimeout lane => Sys2Proof.Machine.execReplyTimeout lane s
  | .transactionBudgetEnd lane received => Sys2Proof.Machine.execTransactionBudgetEnd lane received s
  | .quietDelayExpiry lane => Sys2Proof.Machine.execQuietDelayExpiry lane s
  | .quietMaximumExpiry lane => Sys2Proof.Machine.execQuietMaximumExpiry lane s
  | .presenceAssert lane => Sys2Proof.Machine.execPresenceAssert lane s
  | .presenceDeassert lane => Sys2Proof.Machine.execPresenceDeassert lane s
  | .laneBreakReceived lane received at_ => Sys2Proof.Machine.execLaneBreakReceived lane received at_ s
  | .laneBreakEnd lane => Sys2Proof.Machine.execLaneBreakEnd lane s
  | .laneFrameStart lane at_ => Sys2Proof.Machine.execLaneFrameStart lane at_ s
  | .laneFrameTooLong lane bytes at_ => Sys2Proof.Machine.execLaneFrameTooLong lane bytes at_ s

end Sys2Proof.Machine
end

