-- ==== Sys2Proof/Machine/Step.lean ====
section
/-! DEFINITION. One step of the block: the command at the front of the queue, or on an empty queue one millisecond of idling. -/

namespace Sys2Proof.Machine

/-- The state while no command waits, one millisecond later (log entry 2). -/
def State.idled (s : State) : State := { s with now := s.now + 1000 }

/-- One step: the command at the front of the queue acts on the state with the queue's rest; on an empty queue the block idles (log
entries 1 and 2). -/
def step (s : State) : Host.Outcome State Fault Refusal :=
  match s.pending with
  | [] => .next s.idled
  | c :: rest => exec c { s with pending := rest }

/-- `s` with the command that a table word spells at the front of its queue; `s` itself where the word spells none. -/
def State.withFetchWord (s : State) (nbits w : Nat) : State :=
  match decodeTableWord nbits w with
  | none => s
  | some c => { s with pending := c :: s.pending }

end Sys2Proof.Machine
end

