-- ==== Sys2Proof/Safety.lean ====
section
/-! DEFINITION. What a safe state is, in the terms the claims use: the bounds and accounts that every step keeps. -/

namespace Sys2Proof.Machine

/-- Content memory is in its canonical form. -/
def ContentOk (s : State) : Prop := Memory.wf s.content = true

/-- The report queue holds at most 64 reports (R151). -/
def QueueOk (s : State) : Prop := s.host.queue.length ≤ Config.reportPlaces

/-- The blocks in the pool and in the block lists of all objects. -/
def allBlocks (s : State) : List Nat := s.pool ++ s.objects.flatMap (fun p => p.2.blocks)

/-- Every block of content memory is accounted for exactly once, and the object table is in order with ids below 48 (R1, R2). -/
def BlocksOk (s : State) : Prop :=
  tableWf Config.objectEntries 0 s.objects = true ∧ (allBlocks s).Perm (List.range Config.blocks)

/-- A lane's parameters are within their ranges; the crossing and presence modes have no value outside theirs (R160). -/
structure LaneParams.ok (p : LaneParams) : Prop where
  divisor : 2 ≤ p.divisor ∧ p.divisor ≤ 960
  roundLength : 50 ≤ p.roundLength ∧ p.roundLength ≤ 1000
  announceWindow : p.announceWindow ≤ 100
  preamble : 1 ≤ p.preamble ∧ p.preamble ≤ 64
  replyTimeout : 5 ≤ p.replyTimeout ∧ p.replyTimeout ≤ 1000
  turnaround : p.turnaround ≤ 500
  slotsPerLane : 1 ≤ p.slotsPerLane ∧ p.slotsPerLane ≤ 12
  segmentSize : 64 ≤ p.segmentSize ∧ p.segmentSize ≤ 448 ∧ p.segmentSize % 16 = 0
  guardMargin : p.guardMargin ≤ 3600
  atRiskLimit : p.atRiskLimit ≤ 3600
  initialEfficiency : 100 ≤ p.initialEfficiency ∧ p.initialEfficiency ≤ 1000
  quietDelay : p.quietDelay ≤ 60000
  quietMaximum : 1 ≤ p.quietMaximum ∧ p.quietMaximum ≤ 600
  burstRounds : 1 ≤ p.burstRounds ∧ p.burstRounds ≤ 20

/-- A lane record within its ranges: parameters, efficiency while switched on (R68), answer queue (R121), acknowledge list (R116),
wake list (R117), burst (R134) and break count (R140). -/
structure Lane.Ok (l : Lane) : Prop where
  params : l.params.ok
  efficiency : l.state ≠ .off → 100 ≤ l.efficiency ∧ l.efficiency ≤ 1000
  answers : l.answers.length ≤ Config.answerPlaces
  acks : l.acks.length ≤ Config.ackPlaces
  wake : l.wake.length ≤ Config.beaconPlaces
  burst : l.burst ≤ 20
  breaks : l.breaks ≤ 65535

/-- Every lane record is within its ranges. -/
def LanesOk (s : State) : Prop := ∀ i : LaneIx, (s.lane i).Ok

/-- The vehicle table and the validator table are in order, with numbers below 256 and below 1024 (R39, R40). -/
def RosterOk (s : State) : Prop :=
  tableWf Config.vehicleEntries 0 s.vehicles = true ∧ tableWf Config.validatorEntries 0 s.validators = true

/-- The policy values within their ranges (R162). -/
structure Policy.Ok (p : Policy) : Prop where
  retryLimit : 1 ≤ p.retryLimit ∧ p.retryLimit ≤ 7
  pendingLimit : 1 ≤ p.pendingLimit ∧ p.pendingLimit ≤ 15
  urgentLag : 1 ≤ p.urgentLag ∧ p.urgentLag ≤ 32
  scanPeriod : 1 ≤ p.scanPeriod ∧ p.scanPeriod ≤ 60
  silenceLimit : 10 ≤ p.silenceLimit ∧ p.silenceLimit ≤ 3600
  wakeMaximum : 1 ≤ p.wakeMaximum ∧ p.wakeMaximum ≤ 50
  relayDepth : 1 ≤ p.relayDepth ∧ p.relayDepth ≤ 2
  reportThreshold : p.reportThreshold ≤ 3
  depotNumber : p.depotNumber ≤ 65535

/-- Every policy value is within its range. -/
def PolicyOk (s : State) : Prop := s.policy.Ok

/-- An object-table entry is in use with a kind and a state. -/
def ObjectIs (s : State) (o : Nat) (k : ObjKind) (st : ObjState) : Prop :=
  ∃ r, look s.objects o = some r ∧ r.kind = k ∧ r.state = st

/-- What the stream records and the job record name is there: PUBLISHED objects of the right kinds, and the BUILDING result; a LOADING
object has no counts yet (R3, R7, R11, R29). -/
structure RecordsOk (s : State) : Prop where
  fare : ∀ f, s.fare = some f → ObjectIs s f.image .fareImage .published
  base : ∀ b, s.block = some b → ObjectIs s b.baseObject .base .published
  chain : ∀ b, s.block = some b → ∀ d ∈ b.chain, ObjectIs s d .delta .published
  result : ∀ j, s.merge = some j → ObjectIs s j.result .base .building
  loading : ∀ o r, look s.objects o = some r → r.state = .loading → r.entryCount = none ∧ r.addCount = none

/-- The host link is as it was but for reports queued, dropped or displaced. -/
def SameLink (s t : State) : Prop := t.host = { s.host with queue := t.host.queue, lostMark := t.host.lostMark }

/-- What work inside the part leaves as it is, and the accounts it keeps: no content byte, no policy value, no clock, no time, no
scanner field and no part of the host link but the report queue changes, and no lane is switched OFF. -/
structure Inside (s t : State) : Prop where
  content : t.content = s.content
  policy : t.policy = s.policy
  clock : t.clock = s.clock
  now : t.now = s.now
  scanner : t.scanner = s.scanner
  resetPin : t.resetPin = s.resetPin
  pending : t.pending = s.pending
  link : SameLink s t
  queue : QueueOk s → QueueOk t
  lanes : LanesOk s → LanesOk t
  on : ∀ i : LaneIx, (s.lane i).state ≠ .off → (t.lane i).state ≠ .off
  blocks : BlocksOk s → BlocksOk t
  roster : RosterOk s → RosterOk t

/-- What a choice point leaves as it is (R123 to R128): of a lane only its transaction and what goes with sending may change, of a
slot only its count of segments sent. -/
structure LaneChosen (a b : Lane) : Prop where
  state : b.state = a.state
  phase : b.phase = a.phase
  params : b.params = a.params
  efficiency : b.efficiency = a.efficiency
  useful : b.useful = a.useful
  roundStart : b.roundStart = a.roundStart
  rate : b.rate = a.rate
  inLength : b.inLength = a.inLength
  inWindow : b.inWindow = a.inWindow
  deadline : b.deadline = a.deadline
  doublingDue : b.doublingDue = a.doublingDue
  windowByArrival : b.windowByArrival = a.windowByArrival
  acks : b.acks = a.acks
  wake : b.wake = a.wake
  arrival : b.arrival = a.arrival
  lineAsserted : b.lineAsserted = a.lineAsserted
  quietMaxEnd : b.quietMaxEnd = a.quietMaxEnd
  leftQuiet : b.leftQuiet = a.leftQuiet
  burst : b.burst = a.burst
  fault : b.fault = a.fault
  breaks : b.breaks = a.breaks
  powerSave : b.powerSave = a.powerSave
  answers : b.answers.length ≤ a.answers.length

/-- A slot with its count of segments sent left out. -/
def Slot.unsent (r : Slot) : Slot := { r with binding := r.binding.map (fun b => { b with segmentsSent := 0 }) }

/-- The same slot but for its count of segments sent. -/
def SlotChosen (a b : Slot) : Prop := b.unsent = a.unsent

/-- `t` is `s` but for what the choice points of its lanes do (R123). -/
structure Chosen (s t : State) : Prop where
  rest : t = { s with lanes := t.lanes, slots := t.slots }
  lanes : ∀ i : LaneIx, LaneChosen (s.lane i) (t.lane i)
  slots : ∀ k : SlotIx, SlotChosen (s.slot k) (t.slot k)

/-! ## Words of the claims -/

/-- The processor holds a request with a tag (R148). -/
def Held (s : State) (tag : Byte) (r : Request) : Prop := s.host.processor = .busy tag r

/-- The request is answered: the reply stands in the reply place and the processor is IDLE (R149). -/
def replied (kind : Nat) (tag : Byte) (st : Status) (fields : List Byte) (s : State) : State :=
  { s with host := { s.host with replyPlace := some ⟨kind, tag, st, fields⟩, processor := .idle } }

/-- The entry of a table with the smallest measure among those that qualify, of equal ones the one with the lowest number; none exactly
when no entry qualifies (R48, R52, R125). -/
def Oldest {α : Type} (measure : α → Nat) (t : Table α) (ok : α → Prop) : Option (Nat × α) → Prop
  | none => ∀ v r, look t v = some r → ¬ok r
  | some (v, r) => look t v = some r ∧ ok r ∧
    ∀ w q, look t w = some q → ok q → measure r < measure q ∨ (measure r = measure q ∧ v ≤ w)

/-- LOAD_OPEN's fields are those of a kind of object (R5). -/
def OpenFieldsOk (stream kind size effective : Nat) (k : ObjKind) : Prop :=
  stream = k.stream.code ∧ kind = k.code ∧ (k = .fareImage ∨ effective = 0) ∧ 0 < size ∧
    size ≤ (match k with
      | .fareImage => 262144
      | .base => 3145728
      | .delta => 65536)

/-- A generation that LOAD_OPEN refuses (R6, step 1). -/
def GenerationBad (s : State) (k : ObjKind) (g : Nat) : Prop :=
  g = 0 ∨
    match k with
    | .fareImage => (∃ f, s.fare = some f ∧ g ≤ f.generation) ∨
        (∃ o, objectOf s .fareImage .staged = some o ∧ g ≤ generationOf s o)
    | .base => ∃ b, s.block = some b ∧ g ≤ b.base
    | .delta => ∀ b, s.block = some b → g ≠ b.head + 1

/-- A delta while the chain holds 32 deltas (R6, step 2). -/
def ChainAtLimit (s : State) (k : ObjKind) : Prop := k = .delta ∧ ∃ b, s.block = some b ∧ b.head - b.base = 32

/-- An object's blocks are there for its declared size, each once (R1). -/
def BlocksFit (r : ContentObject) : Prop :=
  r.declaredSize ≤ 1024 * r.blocks.length ∧ (∀ b ∈ r.blocks, b < 4096) ∧ r.blocks.Nodup

/-- A ranked entry that a dispatch walk can bind: it is live, its vehicle and lane may be served, and its next item is the PUBLISHED
object `o` (R82, R87). -/
structure Bindable (s : State) (e : RankedEntry) (v : Validator) (vi : Nat) (veh : Vehicle) (o : Nat) (r : ContentObject) :
    Prop where
  entry : look s.validators e.index = some v
  serial : v.serial = e.serial
  work : v.work ≠ []
  rejected : v.flags.rejected = false
  attached : v.vehicle = some vi
  vehicle : look s.vehicles vi = some veh
  present : veh.state = .present
  lane : (s.lane veh.lane).state ≠ .off ∧ (s.lane veh.lane).state ≠ .resetting
  unbound : v.boundSlot = none
  laneLimit : boundOn s veh.lane < (s.lane veh.lane).params.slotsPerLane
  depth : veh.boundSlots < s.policy.relayDepth
  full : v.plan = .full → v.work.head? = some o
  blockOnly : v.plan = .blockOnly → v.work.find? (isBlock s) = some o
  object : look s.objects o = some r
  published : r.state = .published

/-- Exactly the slots whose binding `which` picks have ended, with a condition and without the unconfirmed mark (R105, R107). -/
def SlotsEnded (which : Binding → Prop) (c : EndCond) (s u : State) : Prop :=
  ∀ k : SlotIx, (∀ b, (s.slot k).binding = some b → which b → u.slot k = ⟨none, c, false⟩) ∧
    ((∀ b, (s.slot k).binding = some b → ¬which b) → u.slot k = s.slot k)

/-- The vehicle records are as they were but for their counts of bound slots. -/
def SameVehicles (s u : State) : Prop :=
  ∀ v, (∀ r, look s.vehicles v = some r → ∃ n, look u.vehicles v = some { r with boundSlots := n }) ∧
    (look s.vehicles v = none → look u.vehicles v = none)

/-- The lane has entered RESETTING, with `n` bytes of a frame in progress received: its transaction is abandoned, its slots have ended
with LANE_RESET, each as one end of a binding after the other, its answers, burst and timers are gone, and the rest of its record stays (R138). -/
structure EnteredResetting (n : Nat) (s u : State) (i : LaneIx) : Prop where
  lane : u.lane i = { s.lane i with
    state := .resetting, phase := .none, answers := [], transaction := none, reception := none, quietTimer := .stopped,
    frameWake := false, burst := 0, quietMaxEnd := none, leftQuiet := none, powerSave := false,
    deadline := s.now + ceilDiv 20000000 (s.lane i).rate,
    spent := match (s.lane i).transaction with
      | none => spentAfter (s.lane i) n
      | some t => addSat32 (s.lane i).spent (sentSoFar (s.lane i).rate s.now t + n) }
  others : ∀ j, j ≠ i → u.lane j = s.lane j
  ended : u = { endLaneSlots i .laneReset { s with lanes := s.lanes.set i { s.lane i with
      transaction := none, reception := none, spent := (u.lane i).spent } } with lanes := u.lanes }
  slots : SlotsEnded (fun b => b.lane = i) .laneReset s u
  vehicles : SameVehicles s u
  inside : Inside s u

/-- A binding that the retirement of objects abandons: it carries one of them at step OPEN or SEG (R103). -/
def Retires (retired : List Nat) (_ : SlotIx) (b : Binding) : Prop := b.object ∈ retired ∧ b.step ≠ .close ∧ b.step ≠ .abandon

/-- Exactly the bindings that `takes` picks have taken step ABANDON, each in SEND or, from PROBE, in PROBE, and a transaction in flight of
such a slot acts on the error count alone; every other slot and lane is as it was (R18, R103). -/
structure SlotsTold (takes : SlotIx → Binding → Prop) (s w : State) : Prop where
  abandoned : ∀ k b, (s.slot k).binding = some b → takes k b → w.slot k = { s.slot k with binding := some { b with
    step := .abandon, state := if b.state = .probe then .probe else .send, pendings := 0, superseded := true } }
  kept : ∀ k, (∀ b, (s.slot k).binding = some b → ¬takes k b) → w.slot k = s.slot k
  inFlight : ∀ i tr k c b, (s.lane i).transaction = some tr → tr.owner = .slot k c → (s.slot k).binding = some b → b.lane = i →
    takes k b → w.lane i = { s.lane i with transaction := some { tr with owner := .slot k true } }
  lanes : ∀ i, (∀ tr k c b, (s.lane i).transaction = some tr → tr.owner = .slot k c → (s.slot k).binding = some b → b.lane = i →
    ¬takes k b) → w.lane i = s.lane i

end Sys2Proof.Machine
end

