-- ==== Sys2Proof/Certificates/Slice0/Obligations.lean ====
section
/-! DEFINITION. The statements for the provers. Each docstring names the rule it comes from, and where a clause rests on a choice of the
model, the log entry. -/

section

open Sys2Proof Sys2Proof.Machine

/-! ## The queue of commands -/

/-- A step runs exec on the command at the front of the queue, with the queue's rest (log entry 1); on an empty queue the block idles for
one millisecond (the model's choice, log entry 2). -/
def Obligations.StepRunsFrontCommand : Prop :=
  (∀ (c : Instr) (rest : List Instr) (s : State), s.pending = c :: rest → step s = exec c { s with pending := rest }) ∧
  (∀ s : State, s.pending = [] → step s = .next { s with now := s.now + 1000 })

/-! ## Resets and the host link (08) -/

/-- POWER_ON, RESET_PIN_RELEASE and RESET_PART_TAKES_EFFECT put every block in its reset state and submit STARTED with their cause and
the rate of the straps; a RESET pin that is asserted stays asserted through a RESET_PART (R22, R29, R62, R63, R65, R85, R142, R143, R153,
R162). The model's own are the order of the pool (log entry 9), content memory read as 0 (log entry 10), the clear unconfirmed mark of a
FREE slot (log entry 15) and the pin's level after a power-on (log entry 23). -/
def Obligations.ResetsStartEveryBlock : Prop :=
  ∀ (s : State) (straps : Straps) (c : Instr) (cause : StartCause),
    (c = .powerOn straps ∧ cause = .power) ∨ (c = .resetPinRelease straps ∧ cause = .pin ∧ s.resetPin = true) ∨
      (c = .resetPartTakesEffect straps ∧ cause = .request ∧ s.host.processor = .awaitReset true) →
    ∃ t, exec c s = .next t ∧
      (t.content = [] ∧ t.pool = List.range 4096 ∧ t.objects = [] ∧ t.fare = none ∧ t.block = none ∧ t.merge = none) ∧
      (t.vehicles = [] ∧ t.validators = [] ∧ t.vehicleFull = false ∧ t.validatorFull = false) ∧
      (t.clock.count = 0 ∧ t.clock.unset = true) ∧
      (t.scanner.run = none ∧ t.scanner.ranked = [] ∧ t.scanner.completedAt = 0 ∧ t.scanner.periodEnd = t.now + 5000000) ∧
      (∀ k, t.slot k = ⟨none, .none, false⟩) ∧
      (∀ i, (t.lane i).state = .off ∧ (t.lane i).params = LaneParams.defaults ∧ (t.lane i).powerSave = false) ∧
      t.policy = ⟨5, 6, 2, 5, 120, 30, 1, 1, 0⟩ ∧
      (t.host.straps = straps ∧ t.host.receiver = .hunting ∧ t.host.rxOpen = false ∧ (∀ b, t.host.buffers.get b = .free) ∧
        t.host.order = [] ∧ t.host.processor = .idle ∧ t.host.replyPlace = none ∧ t.host.transmitter = none ∧
        t.host.lostMark = false) ∧
      (t.resetPin = true ↔ cause = .request ∧ s.resetPin = true) ∧
      t.host.queue = [⟨.started cause (match straps.strap1, straps.strap0 with
        | false, false => 115200
        | false, true => 460800
        | true, false => 921600
        | true, true => 1843200), 0⟩]

/-- RESET_PIN_ASSERT ends what is sent and closes the receiver; while the pin is asserted nothing is sent, and while the receiver is closed
nothing received is taken (R143, R153; that other blocks run on is the model's, log entry 23, that a break before STARTED begins to be sent
is not taken log entry 40). -/
def Obligations.ResetPinHoldsTheLink : Prop :=
  (∀ s : State, exec .resetPinAssert s =
    .next { s with resetPin := true, host := { s.host with rxOpen := false, transmitter := none } }) ∧
  (∀ s : State, s.resetPin = true → exec .transmitStart s = .next s) ∧
  (∀ s : State, s.host.rxOpen = false → exec .hostFrameStart s = .next s ∧ exec .hostLinkBreak s = .next s ∧
    ∀ bs, exec (.hostFrameEnd bs) s = .next s ∧ exec (.hostFrameAbort bs) s = .next s ∧
      exec (.hostFrameTimeout bs) s = .next s)

/-- A start byte while HUNTING takes a FREE buffer, or with none FREE the frame is discarded (R144; of two FREE buffers the model takes
the lower, log entry 31). -/
def Obligations.HostFrameStartTakesABuffer : Prop :=
  ∀ s : State, s.host.rxOpen = true → s.host.receiver = .hunting →
    (s.host.buffers.get 0 = .free → exec .hostFrameStart s =
      .next { s with host := { s.host with receiver := .receiving 0, buffers := s.host.buffers.set 0 .filling } }) ∧
    (s.host.buffers.get 0 ≠ .free → s.host.buffers.get 1 = .free → exec .hostFrameStart s =
      .next { s with host := { s.host with receiver := .receiving 1, buffers := s.host.buffers.set 1 .filling } }) ∧
    (s.host.buffers.get 0 ≠ .free → s.host.buffers.get 1 ≠ .free → exec .hostFrameStart s =
      .next { s with host := { s.host with receiver := .discarding } })

/-- What bytes after the start byte are a whole host frame, an end by their length and a part of a frame; and every end of one: stored as a
WAITING request, an overrun, or bad with its cause; the buffer of a bad frame is FREE, the receiver is HUNTING, and nothing but a report
follows (R144, R145, R146, R165). -/
def Obligations.HostFrameEnds : Prop :=
  (∀ (bs : List Byte) (len : Nat), len = field bs 0 2 →
    (wholeHostFrame bs = true ↔ 2 ≤ len ∧ len ≤ 1102 ∧ bs.length = len + 4) ∧
    (badHostLength bs = true ↔ bs.length = 2 ∧ (len < 2 ∨ 1102 < len)) ∧
    (partHostFrame bs = true ↔ bs.length < 2 ∨ (2 ≤ len ∧ len ≤ 1102 ∧ bs.length < len + 4))) ∧
  ∀ (s : State) (ended : HostLink), s.host.rxOpen = true →
    (∃ b, s.host.receiver = .receiving b ∧
      ended = { s.host with receiver := .hunting, buffers := s.host.buffers.set b .free }) ∨
    (s.host.receiver = .discarding ∧ ended = { s.host with receiver := .hunting }) →
    (∀ bs, wholeHostFrame bs = true →
      field bs (field bs 0 2 + 2) 2 = (crc16 (bs.take (field bs 0 2 + 2))).toNat →
      (∀ b, s.host.receiver = .receiving b → exec (.hostFrameEnd bs) s = .next { s with host :=
        { s.host with receiver := .hunting, order := s.host.order ++ [b],
                      buffers := s.host.buffers.set b (.waiting ⟨BitVec.ofNat 8 (field bs 2 1), BitVec.ofNat 8 (field bs 3 1),
                        (bs.drop 4).take (field bs 0 2 - 2)⟩) } }) ∧
      (s.host.receiver = .discarding → exec (.hostFrameEnd bs) s =
        .next (submit (.linkOverrun (BitVec.ofNat 8 (field bs 2 1)) (BitVec.ofNat 8 (field bs 3 1))) { s with host := ended }))) ∧
    (∀ bs, wholeHostFrame bs = true →
      field bs (field bs 0 2 + 2) 2 ≠ (crc16 (bs.take (field bs 0 2 + 2))).toNat →
      exec (.hostFrameEnd bs) s = .next (submit (.linkError .crc (field bs 0 2)) { s with host := ended })) ∧
    (∀ bs, badHostLength bs = true →
      exec (.hostFrameAbort bs) s = .next (submit (.linkError .length (field bs 0 2)) { s with host := ended })) ∧
    (∀ bs, partHostFrame bs = true →
      exec (.hostFrameAbort bs) s =
        .next (submit (.linkError .framing (if bs.length < 2 then 0 else field bs 0 2)) { s with host := ended }) ∧
      exec (.hostFrameTimeout bs) s =
        .next (submit (.linkError .timeout (if bs.length < 2 then 0 else field bs 0 2)) { s with host := ended }))

/-- While the receiver takes bytes (what a break before that does is log entry 40), a host-link break abandons the frame in progress, frees
every buffer and puts the receiver in BREAK, where it takes nothing until the line returns to mark; nothing else changes (R147). -/
def Obligations.HostLinkBreakClearsTheReceiver : Prop :=
  (∀ s : State, s.host.rxOpen = true → exec .hostLinkBreak s = .next { s with host :=
    { s.host with receiver := .inBreak, buffers := Vector.replicate 2 .free, order := [] } }) ∧
  (∀ s : State, s.host.receiver = .inBreak →
    exec .hostBreakEnd s = .next { s with host := { s.host with receiver := .hunting } } ∧
    exec .hostFrameStart s = .next s ∧ ∀ bs, exec (.hostFrameEnd bs) s = .next s)

/-- REQUEST_TAKE takes the oldest WAITING request, frees its buffer and makes the processor BUSY with it, as a request of its kind with its
fields, or as one to be refused for a kind that is no request kind or a body length that the kind does not allow; without an empty reply
place nothing is taken (R146, R148, R149, R154, R157, R158, R159, R160, R161, R162, R163; that a further REQUEST_TAKE is the completion of
such a refusal is the model's choice, log entry 6). -/
def Obligations.RequestTakeJudgesKindAndLength : Prop :=
  (∀ k lo hi : Nat, bodyLengths k = some (lo, hi) ↔ (k, lo, hi) ∈ [(0x01, 0, 0), (0x02, 0, 0), (0x03, 16, 16), (0x04, 5, 1100),
    (0x05, 1, 1), (0x06, 1, 1), (0x07, 2, 2), (0x08, 0, 0), (0x09, 0, 0), (0x0A, 7, 7), (0x0B, 6, 6), (0x0C, 2, 2), (0x0D, 2, 2),
    (0x0E, 4, 4), (0x0F, 3, 3), (0x10, 5, 5), (0x11, 30, 30), (0x12, 1, 1), (0x13, 1, 1), (0x14, 1, 1), (0x15, 13, 13), (0x16, 4, 4),
    (0x17, 0, 0), (0x18, 0, 0)]) ∧
  (∀ b : List Byte,
    parseBody 0x01 b = some .identify ∧ parseBody 0x02 b = some .resetPart ∧
    parseBody 0x03 b = some (.loadOpen (field b 0 1) (field b 1 1) (field b 2 2) (field b 4 4) (field b 8 4) (field b 12 4)) ∧
    parseBody 0x04 b = some (.loadData (field b 0 1) (field b 1 4) (b.drop 5)) ∧
    parseBody 0x05 b = some (.loadClose (field b 0 1)) ∧ parseBody 0x06 b = some (.discard (field b 0 1)) ∧
    parseBody 0x07 b = some (.publish (field b 0 1) (field b 1 1)) ∧ parseBody 0x08 b = some .merge ∧
    parseBody 0x09 b = some .listObjects ∧ parseBody 0x0A b = some (.expectVehicle (field b 0 2) (field b 2 1) (field b 3 4)) ∧
    parseBody 0x0B b = some (.setDeparture (field b 0 2) (field b 2 4)) ∧ parseBody 0x0C b = some (.departVehicle (field b 0 2)) ∧
    parseBody 0x0D b = some (.readVehicle (field b 0 2)) ∧ parseBody 0x0E b = some (.readValidator (field b 0 4)) ∧
    parseBody 0x0F b = some (.readRanking (field b 0 2) (field b 2 1)) ∧
    parseBody 0x10 b = some (.clearFlags (field b 0 4) (field b 4 1)) ∧
    parseBody 0x11 b = some (.setLane (field b 0 1) (field b 1 1) (field b 2 2) ⟨field b 4 2, field b 6 2, field b 8 1, field b 9 1,
      field b 10 2, field b 12 2, field b 14 1, field b 15 2, field b 17 2, field b 19 2, field b 21 1, field b 22 2, field b 24 2,
      field b 26 2, field b 28 1, field b 29 1⟩) ∧
    parseBody 0x12 b = some (.readLane (field b 0 1)) ∧ parseBody 0x13 b = some (.resetLane (field b 0 1)) ∧
    parseBody 0x14 b = some (.wakeLane (field b 0 1)) ∧
    parseBody 0x15 b = some (.setPolicy (field b 0 2) ⟨field b 2 1, field b 3 1, field b 4 1, field b 5 1, field b 6 2, field b 8 1,
      field b 9 1, field b 10 1, field b 11 2⟩) ∧
    parseBody 0x16 b = some (.setTime (field b 0 4)) ∧ parseBody 0x17 b = some .scanNow ∧ parseBody 0x18 b = some .readSlots) ∧
  (∀ (s : State) (b : Fin 2) (rest : List (Fin 2)) (r : RawRequest) (taken : Request → State),
    s.host.processor = .idle → s.host.replyPlace = none → s.host.order = b :: rest → s.host.buffers.get b = .waiting r →
    (∀ q, taken q = { s with host :=
      { s.host with buffers := s.host.buffers.set b .free, order := rest, processor := .busy r.tag q } }) →
    (bodyLengths r.kind.toNat = none → exec .requestTake s = .next (taken (.rejected 0xFF .badKind))) ∧
    (∀ lo hi, bodyLengths r.kind.toNat = some (lo, hi) → ¬(lo ≤ r.body.length ∧ r.body.length ≤ hi) →
      exec .requestTake s = .next (taken (.rejected (r.kind.toNat + 0x80) .badLength))) ∧
    (∀ lo hi, bodyLengths r.kind.toNat = some (lo, hi) → lo ≤ r.body.length ∧ r.body.length ≤ hi →
      ∃ q, parseBody r.kind.toNat r.body = some q ∧ exec .requestTake s = .next (taken q))) ∧
  (∀ (s : State) (tag : Byte) (replyKind : Nat) (st : Status), Held s tag (.rejected replyKind st) →
    exec .requestTake s = .next (replied replyKind tag st [] s)) ∧
  (∀ s : State, (∀ tag k st, s.host.processor ≠ .busy tag (.rejected k st)) →
    s.host.processor ≠ .idle ∨ s.host.replyPlace ≠ none → exec .requestTake s = .next s)

/-- TRANSMIT_START sends the reply if there is one, else the earliest report of the highest level, with the lost mark taken and cleared;
STARTED opens the receiver; with nothing to send the transmitter stays IDLE. A reply and a report as bytes: start byte, length, kind, tag,
body and CRC-16, the body of a report being level, kind, yard count, lost-before flag and fields (R150, R151, R152, R153, R164, R165, R172;
that reports are numbered in the order of R164 is R165). -/
def Obligations.TransmitterChoosesReplyThenReport : Prop :=
  (∀ s : State, s.host.transmitter = none → s.resetPin = false → s.host.processor ≠ .awaitReset true →
    (∀ r, s.host.replyPlace = some r → exec .transmitStart s =
      .next { s with host := { s.host with transmitter := some (.reply r), replyPlace := none } }) ∧
    (∀ before_ r after_, s.host.replyPlace = none → s.host.queue = before_ ++ r :: after_ →
      (∀ x ∈ before_, x.body.level < r.body.level) → (∀ x ∈ after_, x.body.level ≤ r.body.level) →
      exec .transmitStart s = .next { s with host :=
        { s.host with transmitter := some (.report r s.host.lostMark), queue := before_ ++ after_, lostMark := false,
                      rxOpen := s.host.rxOpen || decide (r.body.code = 1) } }) ∧
    (s.host.replyPlace = none → s.host.queue = [] → exec .transmitStart s = .next s)) ∧
  (∀ (kind : Nat) (tag : Byte) (body covered : List Byte), covered = leBytes 2 (body.length + 2) ++ leBytes 1 kind ++ [tag] ++ body →
    hostFrame kind tag body = [0xA7] ++ covered ++ leBytes 2 (crc16 covered).toNat) ∧
  (∀ r : Reply, (OutFrame.reply r).bytes = hostFrame r.kind r.tag (leBytes 1 r.status.code ++ r.fields)) ∧
  (∀ (r : Report) (lost : Bool), (OutFrame.report r lost).bytes = hostFrame 0xFE 0
    (leBytes 1 r.body.level ++ leBytes 1 r.body.code ++ leBytes 4 r.yard ++ boolByte lost ++ r.body.bytes)) ∧
  (∀ (c : StartCause) (rate : Nat), (ReportBody.started c rate).code = 1 ∧
    (ReportBody.started c rate).bytes = leBytes 1 c.code ++ leBytes 4 rate) ∧
  (∀ (l : LaneIx) (st : LaneState) (n : Nat), (ReportBody.laneFault l st n).code = 2 ∧
    (ReportBody.laneFault l st n).bytes = leBytes 1 l.val ++ leBytes 1 st.code ++ leBytes 2 n) ∧
  (∀ (v : Nat) (b : List (Nat × Nat)), (ReportBody.missedDeparture v b).code = 3 ∧ (ReportBody.missedDeparture v b).bytes =
    leBytes 2 v ++ leBytes 1 b.length ++ b.flatMap (fun p => leBytes 4 p.1 ++ leBytes 1 p.2)) ∧
  (∀ (r : SlackReport) (c : Nat) (head tail : List Byte),
    head = leBytes 4 r.serial ++ leBytes 2 r.vehicle ++ leBytes 1 r.lane.val ++ int16Bytes r.slack ++ leBytes 1 r.plan.code →
    tail = leBytes 1 r.lag ++ leBytes 4 (orZero r.departure) →
    (ReportBody.slackNegative r).code = 4 ∧ (ReportBody.slackNegative r).bytes = head ++ tail ∧
    (ReportBody.atRisk r c).code = 11 ∧ (ReportBody.atRisk r c).bytes = head ++ leBytes 1 c ++ tail ∧
    (ReportBody.slackRecovered r).code = 12 ∧ (ReportBody.slackRecovered r).bytes = head ++ tail) ∧
  (∀ r : TransferReport, (ReportBody.transferEnded r).code = 5 ∧ (ReportBody.transferEnded r).bytes =
    leBytes 1 r.slot.val ++ leBytes 2 r.index ++ leBytes 4 r.serial ++ leBytes 2 r.vehicle ++ leBytes 1 r.lane.val ++ leBytes 1 r.object ++
      leBytes 1 r.kind.stream.code ++ leBytes 1 r.kind.code ++ leBytes 2 r.generation ++ leBytes 1 r.condition.code ++
      boolByte r.unconfirmed ++ leBytes 4 r.segmentsSent ++ leBytes 1 r.closeAttempts) ∧
  (∀ (v : Nat) (l : LaneIx) (st : VehicleState) (n : Nat), (ReportBody.vehicleUnreachable v l st n).code = 6 ∧
    (ReportBody.vehicleUnreachable v l st n).bytes = leBytes 2 v ++ leBytes 1 l.val ++ leBytes 1 st.code ++ leBytes 1 n ∧
    (ReportBody.vehicleArrived v l n).code = 13 ∧
    (ReportBody.vehicleArrived v l n).bytes = leBytes 2 v ++ leBytes 1 l.val ++ leBytes 1 n) ∧
  (∀ (t : RosterTable) (v serial : Nat), (ReportBody.rosterFull t v serial).code = 7 ∧
    (ReportBody.rosterFull t v serial).bytes = leBytes 1 t.code ++ leBytes 2 v ++ leBytes 4 serial) ∧
  (∀ (serial : Nat) (st : Stream) (h p : Nat), (ReportBody.genAhead serial st h p).code = 8 ∧
    (ReportBody.genAhead serial st h p).bytes = leBytes 4 serial ++ leBytes 1 st.code ++ leBytes 2 h ++ leBytes 2 p) ∧
  (∀ (o g : Nat) (r : MergeFailure) (n : Nat), (ReportBody.mergeFailed o g r n).code = 9 ∧
    (ReportBody.mergeFailed o g r n).bytes = leBytes 1 o ++ leBytes 2 g ++ leBytes 1 r.code ++ leBytes 4 n) ∧
  (∀ k t : Byte, (ReportBody.linkOverrun k t).code = 10 ∧ (ReportBody.linkOverrun k t).bytes = [k, t]) ∧
  (∀ (v : Nat) (l : LaneIx) (st : VehicleState) (c : DepartCause), (ReportBody.vehicleGone v l st c).code = 14 ∧
    (ReportBody.vehicleGone v l st c).bytes = leBytes 2 v ++ leBytes 1 l.val ++ leBytes 1 st.code ++ leBytes 1 c.code) ∧
  (∀ o g n z v : Nat, (ReportBody.mergeDone o g n z v).code = 15 ∧
    (ReportBody.mergeDone o g n z v).bytes = leBytes 1 o ++ leBytes 2 g ++ leBytes 4 n ++ leBytes 4 z ++ leBytes 4 v) ∧
  (∀ (c : LinkCause) (n : Nat), (ReportBody.linkError c n).code = 16 ∧
    (ReportBody.linkError c n).bytes = leBytes 1 c.code ++ leBytes 2 n) ∧
  (∀ (serial v : Nat) (f b : Option Nat), (ReportBody.validatorCurrent serial v f b).code = 17 ∧
    (ReportBody.validatorCurrent serial v f b).bytes = leBytes 4 serial ++ leBytes 2 v ++ leBytes 2 (orZero f) ++ leBytes 2 (orZero b)) ∧
  (∀ (o : Nat) (k : ObjKind) (g : Nat), (ReportBody.objectRetired o k g).code = 18 ∧
    (ReportBody.objectRetired o k g).bytes = leBytes 1 o ++ leBytes 1 k.stream.code ++ leBytes 1 k.code ++ leBytes 2 g) ∧
  (∀ w c r a b d p : Nat, (ReportBody.scanDone w c r a b d p).code = 19 ∧ (ReportBody.scanDone w c r a b d p).bytes =
    leBytes 2 w ++ leBytes 2 c ++ leBytes 2 r ++ leBytes 2 a ++ leBytes 2 b ++ leBytes 2 d ++ leBytes 2 p) ∧
  ([StartCause.power, .pin, .request].map StartCause.code = [1, 2, 3] ∧
    [LaneState.off, .starting, .active, .quiet, .resetting].map LaneState.code = [0, 1, 2, 3, 4] ∧
    [VehicleState.expected, .present, .asleep, .unreachable, .departed].map VehicleState.code = [1, 2, 3, 4, 5] ∧
    [DepartCause.silence, .request, .laneOff].map DepartCause.code = [1, 2, 3] ∧
    [Plan.full, .blockOnly].map Plan.code = [0, 1] ∧ [Stream.fare, .block].map Stream.code = [1, 2] ∧
    [ObjKind.fareImage, .base, .delta].map (fun k => (k.stream.code, k.code)) = [(1, 1), (2, 2), (2, 3)] ∧
    [EndCond.none, .done, .refused, .objectRejected, .retryExhausted, .superseded, .vehicleGone, .asleep, .moved, .laneReset,
      .laneOff].map EndCond.code = [0, 1, 2, 3, 4, 5, 6, 7, 8, 9, 10] ∧
    [RosterTable.vehicle, .validator].map RosterTable.code = [1, 2] ∧
    [MergeFailure.superseded, .discarded, .tooLarge].map MergeFailure.code = [1, 2, 3] ∧
    [LinkCause.length, .framing, .timeout, .crc].map LinkCause.code = [1, 2, 3, 4] ∧
    [Status.ok, .clamped, .busy, .badKind, .badLength, .badField, .noSpace, .notFound, .wrongState, .laneOff, .badCheck, .badContent,
      .badGeneration, .chainFull].map Status.code = [0, 1, 2, 3, 4, 5, 6, 7, 8, 9, 10, 11, 12, 13])

/-- TRANSMIT_END makes the transmitter IDLE. RESET_PART places its OK reply without fields and the processor stays BUSY with it; at the end
of that reply, and of no other frame, an earlier reply or a report, the part is ready to reset, and from then on nothing more is taken or
sent (R149, R150, R156). -/
def Obligations.TransmitEndAndResetPart : Prop :=
  (∀ (s : State) (tag : Byte), Held s tag .resetPart → exec .resetPart s = .next { s with host := { s.host with
    replyPlace := some ⟨0x82, tag, .ok, []⟩, processor := .awaitReset false } }) ∧
  (∀ (s : State) (f : OutFrame), s.host.transmitter = some f →
    (s.host.processor ≠ .awaitReset false → exec .transmitEnd s =
      .next { s with host := { s.host with transmitter := none } }) ∧
    (s.host.processor = .awaitReset false → (∃ tag b, f = .reply ⟨0x82, tag, .ok, b⟩) → exec .transmitEnd s =
      .next { s with host := { s.host with transmitter := none, processor := .awaitReset true } }) ∧
    (s.host.processor = .awaitReset false → (∀ tag b, f ≠ .reply ⟨0x82, tag, .ok, b⟩) → exec .transmitEnd s =
      .next { s with host := { s.host with transmitter := none } })) ∧
  (∀ s : State, (∃ sent, s.host.processor = .awaitReset sent) → exec .requestTake s = .next s) ∧
  (∀ s : State, s.host.processor = .awaitReset true → exec .transmitStart s = .next s)

/-- A report that is submitted is stamped with the yard count and then queued, not queued, dropped, or put in the place of the oldest
report of the lowest level, by the five rows of the table; the level of every kind (R151, R164). -/
def Obligations.ReportQueueDiscipline : Prop :=
  (∀ (b : ReportBody) (s : State),
    (b.level < s.policy.reportThreshold → submit b s = s) ∧
    (s.policy.reportThreshold ≤ b.level → s.host.queue.length < 64 →
      submit b s = { s with host := { s.host with queue := s.host.queue ++ [⟨b, s.clock.count⟩] } }) ∧
    (s.policy.reportThreshold ≤ b.level → 64 ≤ s.host.queue.length → b.level < 3 →
      submit b s = { s with host := { s.host with lostMark := true } }) ∧
    (s.policy.reportThreshold ≤ b.level → 64 ≤ s.host.queue.length → b.level = 3 →
      (∀ before_ old after_, s.host.queue = before_ ++ old :: after_ → old.body.level < 3 →
        (∀ x ∈ before_, old.body.level < x.body.level) → (∀ x ∈ after_, old.body.level ≤ x.body.level) →
        submit b s = { s with host := { s.host with queue := before_ ++ after_ ++ [⟨b, s.clock.count⟩], lostMark := true } }) ∧
      ((∀ x ∈ s.host.queue, x.body.level = 3) → submit b s = { s with host := { s.host with lostMark := true } }))) ∧
  (∀ b : ReportBody,
    (b.level = 3 ↔ (∃ c r, b = .started c r) ∨ ∃ l st n, b = .laneFault l st n) ∧
    (b.level = 2 ↔ (∃ v l, b = .missedDeparture v l) ∨ (∃ r, b = .slackNegative r) ∨
      (∃ r, b = .transferEnded r ∧ r.condition ≠ .done) ∨ (∃ v l st n, b = .vehicleUnreachable v l st n) ∨
      (∃ t v n, b = .rosterFull t v n) ∨ (∃ n st h p, b = .genAhead n st h p) ∨ (∃ o g r n, b = .mergeFailed o g r n) ∨
      ∃ k t, b = .linkOverrun k t) ∧
    (b.level = 1 ↔ (∃ r c, b = .atRisk r c) ∨ (∃ r, b = .slackRecovered r) ∨ (∃ v l n, b = .vehicleArrived v l n) ∨
      (∃ v l st c, b = .vehicleGone v l st c) ∨ (∃ o g n z v, b = .mergeDone o g n z v) ∨ ∃ c n, b = .linkError c n) ∧
    (b.level = 0 ↔ (∃ r, b = .transferEnded r ∧ r.condition = .done) ∨ (∃ n v f g, b = .validatorCurrent n v f g) ∨
      (∃ o k g, b = .objectRetired o k g) ∨ ∃ w c r a e d p, b = .scanDone w c r a e d p))

/-- IDENTIFY is answered OK with its twelve fields, of which only the rate and the time-unset mark vary, and changes nothing (R155). -/
def Obligations.IdentifyAnswersTheFixedFields : Prop :=
  ∀ (s : State) (tag : Byte), Held s tag .identify →
    exec .identify s = .next (replied 0x81 tag .ok
      (leBytes 2 640 ++ leBytes 1 1 ++ leBytes 2 4096 ++ leBytes 2 1024 ++ leBytes 1 48 ++ leBytes 2 256 ++ leBytes 2 1024 ++
        leBytes 1 12 ++ leBytes 1 6 ++ leBytes 1 64 ++ leBytes 4 (hostRate s.host.straps) ++ boolByte s.clock.unset) s)

/-- A request command is the completion of a request of its own kind that the processor holds: with no request in the processor, or one of
another kind, it does nothing (the model's form of requests, log entries 1 and 5; which requests the three PUBLISH and the three SET_LANE
commands complete is log entry 26). -/
def Obligations.RequestsNeedTheProcessor : Prop :=
  ∀ (s : State) (c : Instr) (own : Request → Prop) (badFields : Nat → Nat → Nat → RawLaneFields → Prop) (unpaired : Nat → Nat → Prop),
    (∀ lane enable mask f, badFields lane enable mask f ↔ 6 ≤ lane ∨ 2 ≤ enable ∨ (mask.testBit 10 = true ∧ 4 ≤ f.crossing) ∨
      (mask.testBit 15 = true ∧ 3 ≤ f.presence)) →
    (∀ stream kind, unpaired stream kind ↔ ∀ k : ObjKind, ¬(stream = k.stream.code ∧ kind = k.code)) →
    (c, own) ∈ ([(.identify, fun q => q = .identify), (.resetPart, fun q => q = .resetPart),
      (.loadOpen, fun q => ∃ stream kind g size crc effective, q = .loadOpen stream kind g size crc effective),
      (.loadData, fun q => ∃ o offset data, q = .loadData o offset data), (.loadClose, fun q => ∃ o, q = .loadClose o),
      (.discard, fun q => ∃ o, q = .discard o),
      (.publishFareImage, fun q => ∃ stream kind, q = .publish stream kind ∧ (unpaired stream kind ∨ (stream = 1 ∧ kind = 1))),
      (.publishDelta, fun q => ∃ stream kind, q = .publish stream kind ∧ (unpaired stream kind ∨ (stream = 2 ∧ kind = 3))),
      (.publishBase, fun q => ∃ stream kind, q = .publish stream kind ∧ (unpaired stream kind ∨ (stream = 2 ∧ kind = 2))),
      (.merge, fun q => q = .merge), (.listObjects, fun q => q = .listObjects),
      (.expectVehicle, fun q => ∃ number lane departure, q = .expectVehicle number lane departure),
      (.setDeparture, fun q => ∃ number departure, q = .setDeparture number departure),
      (.departVehicle, fun q => ∃ number, q = .departVehicle number), (.readVehicle, fun q => ∃ number, q = .readVehicle number),
      (.readValidator, fun q => ∃ serial, q = .readValidator serial), (.readRanking, fun q => ∃ start count, q = .readRanking start count),
      (.clearFlags, fun q => ∃ serial sel, q = .clearFlags serial sel),
      (.setLane, fun q => ∃ lane enable mask f, q = .setLane lane enable mask f),
      (.switchLaneOn, fun q => ∃ lane enable mask f, q = .setLane lane enable mask f ∧
        (badFields lane enable mask f ∨ (enable = 1 ∧ ∀ i : LaneIx, lane = i.val → (s.lane i).state = .off))),
      (.switchLaneOff, fun q => ∃ lane enable mask f, q = .setLane lane enable mask f ∧ (badFields lane enable mask f ∨ enable = 0)),
      (.readLane, fun q => ∃ lane, q = .readLane lane), (.resetLane, fun q => ∃ lane, q = .resetLane lane),
      (.wakeLane, fun q => ∃ lane, q = .wakeLane lane), (.setPolicy, fun q => ∃ mask f, q = .setPolicy mask f),
      (.setTime, fun q => ∃ time, q = .setTime time), (.scanNow, fun q => q = .scanNow), (.readSlots, fun q => q = .readSlots)] :
      List (Instr × (Request → Prop))) →
    (∀ tag q, s.host.processor = .busy tag q → ¬own q) → exec c s = .next s

/-- A request answered with a status other than OK or CLAMPED has changed nothing but the reply place and the processor; LOAD_CLOSE, whose
refusals free the object, is left out (R148, R154). -/
def Obligations.RefusedRequestChangesNothing : Prop :=
  ∀ (s t : State) (c : Instr) (tag : Byte) (q : Request) (r : Reply), Held s tag q →
    c ∈ [Instr.identify, .resetPart, .loadOpen, .loadData, .discard, .publishFareImage, .publishDelta, .publishBase, .merge,
      .listObjects, .expectVehicle, .setDeparture, .departVehicle, .readVehicle, .readValidator, .readRanking, .clearFlags, .setLane,
      .switchLaneOn, .switchLaneOff, .readLane, .resetLane, .wakeLane, .setPolicy, .setTime, .scanNow, .readSlots] →
    exec c s = .next t → t.host.replyPlace = some r → r.status ≠ .ok → r.status ≠ .clamped →
    t = { s with host := { s.host with replyPlace := t.host.replyPlace, processor := t.host.processor } }

/-! ## Content catalogue (01) -/

/-- LOAD_OPEN: the refusals in their order, else a new LOADING object in the lowest unused entry with its blocks moved from the pool
(R5, R6, R7; which blocks of the pool is the model's choice, log entry 9). -/
def Obligations.LoadOpenOutcome : Prop :=
  ∀ (s : State) (tag : Byte) (stream kind g size crc effective : Nat),
    Held s tag (.loadOpen stream kind g size crc effective) →
    ((∀ k, ¬OpenFieldsOk stream kind size effective k) → exec .loadOpen s = .next (replied 0x83 tag .badField [] s)) ∧
    (∀ k, OpenFieldsOk stream kind size effective k →
      (GenerationBad s k g → exec .loadOpen s = .next (replied 0x83 tag .badGeneration [] s)) ∧
      (¬GenerationBad s k g → ChainAtLimit s k → exec .loadOpen s = .next (replied 0x83 tag .chainFull [] s)) ∧
      (¬GenerationBad s k g → ¬ChainAtLimit s k → (objectOf s k .loading ≠ none ∨ objectOf s k .staged ≠ none) →
        exec .loadOpen s = .next (replied 0x83 tag .wrongState [] s)) ∧
      (¬GenerationBad s k g → ¬ChainAtLimit s k → objectOf s k .loading = none → objectOf s k .staged = none →
        (unusedObject s = none ∨ s.pool.length < (size + 1023) / 1024 →
          exec .loadOpen s = .next (replied 0x83 tag .noSpace [] s)) ∧
        (∀ id, unusedObject s = some id → (size + 1023) / 1024 ≤ s.pool.length →
          exec .loadOpen s = .next (replied 0x83 tag .ok (leBytes 1 id)
            { s with
              objects := put s.objects id ⟨k, g, size, BitVec.ofNat 32 crc, 0, s.pool.take ((size + 1023) / 1024), none, none,
                .loading, 0, absentZero effective⟩,
              pool := s.pool.drop ((size + 1023) / 1024) }))))

/-- LOAD_DATA: the five checks in their order, each refusing whole; else the bytes lie at the offset, every other byte of content memory
reads as before, and bytes received has risen; a byte of an object lies in the block of its block list that its offset falls in, at the
offset within that block (R8, R1). -/
def Obligations.LoadDataOutcome : Prop :=
  (∀ (r : ContentObject) (n a : Nat), byteAddress r n = some a ↔
    ∃ b, r.blocks[n / 1024]? = some b ∧ b < 4096 ∧ a = b * 1024 + n % 1024) ∧
  (∀ (m : Memory) (r : ContentObject) (n a : Nat), byteAddress r n = some a → objectByte m r n = readByte m a) ∧
  (∀ (m : Memory) (r : ContentObject) (offset len : Nat),
    objectBytes m r offset len = (List.range len).map (fun i => objectByte m r (offset + i))) ∧
  ∀ (s : State) (tag : Byte) (o offset : Nat) (data : List Byte), Held s tag (.loadData o offset data) →
    (look s.objects o = none → exec .loadData s = .next (replied 0x84 tag .notFound [] s)) ∧
    (∀ r, look s.objects o = some r →
      (r.state ≠ .loading → exec .loadData s = .next (replied 0x84 tag .wrongState [] s)) ∧
      (r.state = .loading →
        (data.length = 0 ∨ 1024 < data.length → exec .loadData s = .next (replied 0x84 tag .badLength [] s)) ∧
        (1 ≤ data.length → data.length ≤ 1024 →
          (offset ≠ r.received → exec .loadData s = .next (replied 0x84 tag .wrongState [] s)) ∧
          (offset = r.received → r.declaredSize < offset + data.length →
            exec .loadData s = .next (replied 0x84 tag .badLength [] s)) ∧
          (offset = r.received → offset + data.length ≤ r.declaredSize → BlocksFit r → ContentOk s →
            ∃ c, exec .loadData s = .next (replied 0x84 tag .ok (leBytes 4 (offset + data.length))
                { s with content := c, objects := put s.objects o { r with received := offset + data.length } }) ∧
              (∀ j : Nat, ∀ b : Byte, data[j]? = some b → objectByte c r (offset + j) = b) ∧
              (∀ a : Nat, (∀ j < data.length, byteAddress r (offset + j) ≠ some a) → readByte c a = readByte s.content a)))))

/-- LOAD_CLOSE: the refusals in their order, of which those of a LOADING object free it, apart from an occupied staged place; else the
object is STAGED with its counts (R9, R10, R11, R27, R28; that freed blocks return at the end of the pool is log
entry 9). -/
def Obligations.LoadCloseOutcome : Prop :=
  ∀ (s : State) (tag : Byte) (o : Nat), Held s tag (.loadClose o) →
    (look s.objects o = none → exec .loadClose s = .next (replied 0x85 tag .notFound [] s)) ∧
    (∀ (r : ContentObject) (bytes : List Byte) (freed : State), look s.objects o = some r →
      bytes = objectBytes s.content r 0 r.declaredSize →
      freed = { s with objects := erase s.objects o, pool := s.pool ++ r.blocks } →
      (r.state ≠ .loading → exec .loadClose s = .next (replied 0x85 tag .wrongState [] s)) ∧
      (r.state = .loading → r.received ≠ r.declaredSize → exec .loadClose s = .next (replied 0x85 tag .badLength [] freed)) ∧
      (r.state = .loading → r.received = r.declaredSize →
        (crc32 bytes ≠ r.declaredCrc → exec .loadClose s = .next (replied 0x85 tag .badCheck [] freed)) ∧
        (crc32 bytes = r.declaredCrc →
          (∀ f i, r.kind ≠ .fareImage → contentFault r.kind r.generation r.declaredSize bytes = some (f, i) →
            exec .loadClose s = .next (replied 0x85 tag .badContent (leBytes 1 f.code ++ leBytes 4 i) freed)) ∧
          (r.kind = .fareImage ∨ contentFault r.kind r.generation r.declaredSize bytes = none →
            (r.kind ≠ .fareImage → (∃ b, s.block = some b ∧ r.generation ≤ b.base) →
              exec .loadClose s = .next (replied 0x85 tag .badGeneration [] freed)) ∧
            (r.kind = .fareImage ∨ (∀ b, s.block = some b → b.base < r.generation) →
              (objectOf s r.kind .staged ≠ none → exec .loadClose s = .next (replied 0x85 tag .wrongState [] s)) ∧
              (objectOf s r.kind .staged = none → RecordsOk s → ∃ n a,
                (r.kind = .fareImage → n = none ∧ a = none) ∧
                (r.kind = .base → n = some ((r.declaredSize - 16) / 9) ∧ a = none) ∧
                (r.kind = .delta → n = some ((r.declaredSize - 16) / 10) ∧
                  a = some (addEntries (blockEntries .delta ((r.declaredSize - 16) / 10) bytes))) ∧
                exec .loadClose s = .next (replied 0x85 tag .ok (leBytes 1 o ++ leBytes 4 (orZero n))
                  { s with objects := put s.objects o { r with
                      state := .staged, entryCount := n, addCount := a } })))))))

/-- The content check of a BLOCK object: the declared length, the header, the count, the entries from the first to the last (action, reason,
order) and, for a delta, the ADD count; the first fault gives the fault code and the index of its entry, 0 for the other codes. A base
passes exactly when its header agrees with what was declared and its entries are well formed, in strictly ascending card order (R24, R25,
R26, R27, R168, R169, R172). -/
def Obligations.BaseContentCheck : Prop :=
  (∀ (g size : Nat) (bs : List Byte) (es : List BlockEntry), es = blockEntries .base ((size - 16) / 9) bs →
    (contentFault .base g size bs = none ↔
      16 ≤ size ∧ (size - 16) % 9 = 0 ∧ field bs 0 4 = 0x5A3C0001 ∧ field bs 4 2 = 2 ∧ field bs 6 4 = g ∧
        field bs 10 4 = (size - 16) / 9 ∧ field bs 14 2 = 0 ∧
        (∀ e ∈ es, 1 ≤ e.reason ∧ e.reason ≤ 15) ∧ es.Pairwise (fun a b => a.card < b.card))) ∧
  (∀ (k : ObjKind) (n : Nat) (bs : List Byte), (blockEntries k n bs).length = n ∧ ∀ i : Nat, i < n →
    (k ≠ .delta → (blockEntries k n bs)[i]? = some ⟨1, field bs (16 + 9 * i) 8, field bs (16 + 9 * i + 8) 1⟩) ∧
    (k = .delta → (blockEntries k n bs)[i]? =
      some ⟨field bs (16 + 10 * i) 1, field bs (16 + 10 * i + 1) 8, field bs (16 + 10 * i + 9) 1⟩)) ∧
  (∀ (k : ObjKind) (g size w n : Nat) (bs : List Byte) (es : List BlockEntry) (form : BlockEntry → Prop) (after_ : Nat → BlockEntry → Prop),
    k = .base ∧ w = 9 ∨ k = .delta ∧ w = 10 → n = (size - 16) / w → es = blockEntries k n bs →
    (∀ e, form e ↔ e.action = 1 ∧ 1 ≤ e.reason ∧ e.reason ≤ 15 ∨ e.action = 2 ∧ e.reason = 0) →
    (∀ i e, after_ i e ↔ ∀ p, 0 < i → es[i - 1]? = some p → p.card < e.card) →
    (size < 16 ∨ (size - 16) % w ≠ 0 → contentFault k g size bs = some (.length, 0)) ∧
    (16 ≤ size → (size - 16) % w = 0 →
      (field bs 0 4 ≠ 0x5A3C0001 ∨ field bs 4 2 ≠ k.code ∨ field bs 6 4 ≠ g → contentFault k g size bs = some (.header, 0)) ∧
      (field bs 0 4 = 0x5A3C0001 → field bs 4 2 = k.code → field bs 6 4 = g →
        (field bs 10 4 ≠ n ∨ (k = .base ∧ field bs 14 2 ≠ 0) → contentFault k g size bs = some (.count, 0)) ∧
        (field bs 10 4 = n → (k = .base → field bs 14 2 = 0) →
          (∀ i e, es[i]? = some e → (∀ j x, j < i → es[j]? = some x → form x ∧ after_ j x) →
            (e.action ≠ 1 → e.action ≠ 2 → contentFault k g size bs = some (.action, i)) ∧
            (e.action = 1 ∨ e.action = 2 → ¬form e → contentFault k g size bs = some (.reason, i)) ∧
            (form e → ¬after_ i e → contentFault k g size bs = some (.order, i))) ∧
          ((∀ i e, es[i]? = some e → form e ∧ after_ i e) →
            (k = .delta → field bs 14 2 ≠ es.countP (fun e => decide (e.action = 1)) →
              contentFault k g size bs = some (.count, 0)) ∧
            (k = .delta → field bs 14 2 = es.countP (fun e => decide (e.action = 1)) → contentFault k g size bs = none)))))) ∧
  [ContentFault.length, .header, .count, .action, .reason, .order].map ContentFault.code = [1, 2, 3, 4, 5, 6]

/-- DISCARD by the state of the object it names: LOADING and STAGED are freed, a BUILDING result ends its merge with MERGE_FAILED
DISCARDED, PUBLISHED and RETIRING are refused (R12, R37, R38; that freed blocks return at the end of the pool is log
entry 9, the order of several OBJECT_RETIRED log entry 12). -/
def Obligations.DiscardOutcome : Prop :=
  ∀ (s : State) (tag : Byte) (o : Nat), Held s tag (.discard o) →
    (look s.objects o = none → exec .discard s = .next (replied 0x86 tag .notFound [] s)) ∧
    (∀ r, look s.objects o = some r →
      (r.state = .loading ∨ r.state = .staged → exec .discard s = .next (replied 0x86 tag .ok []
        { s with objects := erase s.objects o, pool := s.pool ++ r.blocks })) ∧
      (r.state = .published ∨ r.state = .retiring → exec .discard s = .next (replied 0x86 tag .wrongState [] s)) ∧
      (∀ j, r.state = .building → s.merge = some j → j.result = o →
        exec .discard s = .next (replied 0x86 tag .ok [] (retireSources j.sources
          (submit (.mergeFailed o j.target .discarded j.entriesWritten)
            { j.sources.foldl (fun t d => releaseRef d t) { s with objects := erase s.objects o, pool := s.pool ++ r.blocks } with
              merge := none })))))

/-- PUBLISH of the fare image: refused for fields that do not belong together or an empty staged place; else the staged image is PUBLISHED
and F takes its generation, and the image before it is RETIRING or, without a reference, freed; of the slots exactly those that carry that
image at OPEN or SEG take step ABANDON, their transaction in flight acting on the error count alone, before the lanes choose what to send
(R13, R14, R18, R20, R103; that an unpaired request may come as any of the three PUBLISH commands is log entry 26). -/
def Obligations.PublishFareImageOutcome : Prop :=
  ∀ (s : State) (tag : Byte),
    (∀ stream kind, Held s tag (.publish stream kind) → (∀ k : ObjKind, ¬(stream = k.stream.code ∧ kind = k.code)) →
      ∀ c ∈ [Instr.publishFareImage, .publishDelta, .publishBase],
        exec c s = .next (replied 0x87 tag .badField [] s)) ∧
    (Held s tag (.publish 1 1) → objectOf s .fareImage .staged = none →
      exec .publishFareImage s = .next (replied 0x87 tag .notFound [] s)) ∧
    (∀ o r, Held s tag (.publish 1 1) → BlocksOk s → RecordsOk s → objectOf s .fareImage .staged = some o →
      look s.objects o = some r →
      ∃ t w, exec .publishFareImage s = .next t ∧ t = chooseAll w ∧ Chosen w t ∧
        (s.fare = none → SlotsTold (Retires []) s w) ∧ (∀ f, s.fare = some f → SlotsTold (Retires [f.image]) s w) ∧ t.fare = some ⟨r.generation, o⟩ ∧ t.block = s.block ∧
        ObjectIs t o .fareImage .published ∧
        (∀ f q, s.fare = some f → look s.objects f.image = some q →
          (q.refs = 0 → look t.objects f.image = none) ∧ (q.refs ≠ 0 → ObjectIs t f.image .fareImage .retiring)) ∧
        (∀ d, d ≠ o → (∀ f, s.fare = some f → d ≠ f.image) → look t.objects d = look s.objects d) ∧
        t.host.replyPlace = some ⟨0x87, tag, .ok, leBytes 2 r.generation ++ leBytes 2 (orZero (publishedBase s)) ++
          leBytes 2 (orZero (publishedHead s)) ++ leBytes 1 255 ++ leBytes 2 0⟩ ∧
        t.host.processor = .idle ∧ t.dispatchDue = true ∧
        (t.content = s.content ∧ t.merge = s.merge ∧ t.vehicles = s.vehicles ∧ t.clock = s.clock ∧ t.scanner = s.scanner ∧
          t.policy = s.policy ∧ t.now = s.now))

/-- PUBLISH of the delta: refused when none is staged or its generation is not H+1; else it is PUBLISHED at the end of the chain and H takes
its generation, and no slot is told of anything (R13, R15, R18). -/
def Obligations.PublishDeltaOutcome : Prop :=
  ∀ (s : State) (tag : Byte), Held s tag (.publish 2 3) →
    (objectOf s .delta .staged = none → exec .publishDelta s = .next (replied 0x87 tag .notFound [] s)) ∧
    (∀ o r, objectOf s .delta .staged = some o → look s.objects o = some r →
      ((∀ b, s.block = some b → r.generation ≠ b.head + 1) →
        exec .publishDelta s = .next (replied 0x87 tag .badGeneration [] s)) ∧
      (∀ b, s.block = some b → r.generation = b.head + 1 →
        ∃ t w, exec .publishDelta s = .next t ∧ t = chooseAll w ∧ Chosen w t ∧ SlotsTold (Retires []) s w ∧ t.block = some ⟨b.base, r.generation, b.baseObject, b.chain ++ [o]⟩ ∧
          t.fare = s.fare ∧ t.objects = put s.objects o { r with state := .published } ∧ t.pool = s.pool ∧
          t.host.replyPlace = some ⟨0x87, tag, .ok, leBytes 2 (orZero (publishedFare s)) ++ leBytes 2 b.base ++
            leBytes 2 r.generation ++ leBytes 1 255 ++ leBytes 2 0⟩ ∧
          t.host.processor = .idle ∧ t.dispatchDue = true ∧
          (t.content = s.content ∧ t.merge = s.merge ∧ t.vehicles = s.vehicles ∧ t.clock = s.clock ∧ t.scanner = s.scanner ∧
            t.policy = s.policy ∧ t.now = s.now)))

/-- PUBLISH of the base: the first one starts the chain at B = H = G; a later one rebases: the old base and the deltas up to G leave the
chain, freed exactly when no reference is left once a merge that the publish ends has dropped its own, and RETIRING otherwise, as does each
RETIRING source of that merge; those above stay, and B and H follow; of the slots exactly those that carry an object so retired at OPEN or
SEG take step ABANDON, their transaction in flight acting on the error count alone, before the lanes choose what to send (R13, R16, R17,
R18, R20, R36, R103). -/
def Obligations.PublishBaseOutcome : Prop :=
  ∀ (s : State) (tag : Byte), Held s tag (.publish 2 2) →
    (objectOf s .base .staged = none → exec .publishBase s = .next (replied 0x87 tag .notFound [] s)) ∧
    (∀ o r, BlocksOk s → RecordsOk s → objectOf s .base .staged = some o → look s.objects o = some r →
      ∃ t w, exec .publishBase s = .next t ∧ t = chooseAll w ∧ Chosen w t ∧ ObjectIs t o .base .published ∧ t.fare = s.fare ∧
        t.host.processor = .idle ∧ t.dispatchDue = true ∧
        (t.content = s.content ∧ t.vehicles = s.vehicles ∧ t.clock = s.clock ∧ t.scanner = s.scanner ∧
          t.policy = s.policy ∧ t.now = s.now) ∧
        (s.block = none → t.block = some ⟨r.generation, r.generation, o, []⟩ ∧ t.merge = s.merge ∧
          t.objects = put s.objects o { r with state := .published } ∧ t.pool = s.pool ∧ SlotsTold (Retires []) s w ∧
          t.host.replyPlace = some ⟨0x87, tag, .ok, leBytes 2 (orZero (publishedFare s)) ++ leBytes 2 r.generation ++
            leBytes 2 r.generation ++ leBytes 1 255 ++ leBytes 2 0⟩) ∧
        (∀ b, s.block = some b →
          t.block = some ⟨r.generation, max b.head r.generation, o,
            b.chain.filter (fun d => decide (r.generation < generationOf s d))⟩ ∧
          SlotsTold (Retires (b.baseObject :: b.chain.filter (fun d => decide (generationOf s d ≤ r.generation)))) s w ∧
          (∀ d q refs, look s.objects d = some q → (s.merge = none → refs = q.refs) →
            (∀ j, s.merge = some j → refs = if j.target ≤ r.generation then q.refs - j.sources.count d else q.refs) →
            ∀ goes : Prop, (goes ↔ d = b.baseObject ∨ (d ∈ b.chain ∧ generationOf s d ≤ r.generation) ∨
              (q.state = .retiring ∧ ∃ j, s.merge = some j ∧ j.target ≤ r.generation ∧ d ∈ j.sources)) →
            (goes → (refs = 0 → look t.objects d = none) ∧
              (refs ≠ 0 → look t.objects d = some { q with state := .retiring, refs := refs })) ∧
            (¬goes → d ≠ o → objectOf s .delta .staged ≠ some d → (∀ j, s.merge = some j → j.target ≤ r.generation → d ≠ j.result) →
              look t.objects d = some { q with refs := refs })) ∧
          (∀ d, look s.objects d = none → look t.objects d = none) ∧
          (∀ d ∈ b.chain, r.generation < generationOf s d → ObjectIs t d .delta .published) ∧
          (∀ d q, objectOf s .delta .staged = some d → look s.objects d = some q →
            (q.generation ≤ r.generation → look t.objects d = none) ∧
              (r.generation < q.generation → ObjectIs t d .delta .staged)) ∧
          (∀ j, s.merge = some j → (j.target ≤ r.generation → t.merge = none ∧ look t.objects j.result = none) ∧
            (r.generation < j.target → t.merge = s.merge)) ∧
          (∃ fs, t.host.replyPlace = some ⟨0x87, tag, .ok, leBytes 2 (orZero (publishedFare s)) ++ leBytes 2 r.generation ++
            leBytes 2 (max b.head r.generation) ++ fs⟩ ∧
            (∀ d q, objectOf s .delta .staged = some d → look s.objects d = some q → q.generation ≤ r.generation →
              fs = leBytes 1 d ++ leBytes 2 q.generation) ∧
            (∀ d q, objectOf s .delta .staged = some d → look s.objects d = some q → r.generation < q.generation →
              fs = leBytes 1 255 ++ leBytes 2 0) ∧
            (objectOf s .delta .staged = none → fs = leBytes 1 255 ++ leBytes 2 0))))

/-- A publish carried out recomputes the work list and BLOCK lag of every validator against the new records, clears every REJECTED flag, and
where it gives a stream its first published generation sets the AHEAD flag of each validator held above it; every entry of before stays and
nothing else of it changes. The reports: MERGE_FAILED of a merge that it ends, OBJECT_RETIRED of the objects it frees, then for each
validator GEN_AHEAD and VALIDATOR_CURRENT (R18, R20, R36, R56, R57, R58, R59; the order of the reports, and of validators among each other,
is log entry 12, that GEN_AHEAD comes FARE first log entry 14). -/
def Obligations.PublishRecomputesEveryValidator : Prop :=
  ∀ (s t : State) (c : Instr) (tag : Byte) (q : Request) (fields : List Byte), RosterOk s → Held s tag q →
    c ∈ [Instr.publishFareImage, .publishDelta, .publishBase] → exec c s = .next t → s.host.replyPlace = none →
    t.host.replyPlace = some ⟨0x87, tag, .ok, fields⟩ →
    (∀ i v, look t.validators i = some v →
      v.flags.rejected = false ∧ v.work = workList t v.heldFare v.heldBlock ∧ v.lag = blockLag t v.heldBlock ∧
        ∃ u, look s.validators i = some u ∧ u.serial = v.serial ∧ u.heldFare = v.heldFare ∧ u.heldBlock = v.heldBlock) ∧
    ∀ (fareNew blockNew : Validator → Bool) (told : Validator → List ReportBody),
      (∀ v, fareNew v = true ↔ s.fare = none ∧ ∃ f g, t.fare = some f ∧ v.heldFare = some g ∧ f.generation < g) →
      (∀ v, blockNew v = true ↔ s.block = none ∧ ∃ b g, t.block = some b ∧ v.heldBlock = some g ∧ b.head < g) →
      (∀ v, told v =
        (if fareNew v = true then [.genAhead v.serial .fare (orZero v.heldFare) (orZero (publishedFare t))] else []) ++
        (if blockNew v = true then [.genAhead v.serial .block (orZero v.heldBlock) (orZero (publishedHead t))] else []) ++
        (if v.work ≠ [] ∧ workList t v.heldFare v.heldBlock = []
          then [.validatorCurrent v.serial (vehicleNumber s v.vehicle) v.heldFare v.heldBlock] else [])) →
      t.validators = s.validators.map (fun p => (p.1, { p.2 with
        work := workList t p.2.heldFare p.2.heldBlock, lag := blockLag t p.2.heldBlock,
        flags := { p.2.flags with rejected := false, ahead := p.2.flags.ahead || fareNew p.2 || blockNew p.2 } })) ∧
      ∃ failed retired : List ReportBody,
        t.host = { (submitAll (failed ++ retired ++ s.validators.flatMap (fun p => told p.2)) s).host with
          replyPlace := t.host.replyPlace, processor := .idle } ∧
        (t.merge = s.merge → failed = []) ∧
        (∀ j, s.merge = some j → t.merge = none → failed = [.mergeFailed j.result j.target .superseded j.entriesWritten]) ∧
        (∀ x ∈ retired, ∃ o k g, x = .objectRetired o k g) ∧
        (BlocksOk s → RecordsOk s → ∀ o r, look s.objects o = some r → r.state = .published ∨ r.state = .retiring →
          (.objectRetired o r.kind r.generation ∈ retired ↔ look t.objects o = none))

/-- LIST_OBJECTS returns the catalogue as it stands and changes nothing (R21, R158; an absent base id is carried as 255 as chapter 10
says of absent ids). -/
def Obligations.ListObjectsReadsTheCatalogue : Prop :=
  ∀ (s : State) (tag : Byte), Held s tag .listObjects →
    ∃ ids : List Byte, ids = leBytes 1 (orNone (s.block.map BlockRecord.baseObject)) ++ leBytes 1 (chainOf s).length ++
        (chainOf s).flatMap (leBytes 1) ∧
      exec .listObjects s = .next (replied 0x89 tag .ok
        (leBytes 2 s.pool.length ++ leBytes 2 (orZero (publishedFare s)) ++ leBytes 2 (orZero (publishedBase s)) ++
          leBytes 2 (orZero (publishedHead s)) ++ ids ++ leBytes 1 s.objects.length ++
          s.objects.flatMap (fun p => leBytes 1 p.1 ++ leBytes 1 (16 * p.2.kind.code + p.2.state.code) ++
            leBytes 2 p.2.generation ++ leBytes 3 p.2.declaredSize ++ leBytes 3 p.2.received ++ leBytes 2 p.2.blocks.length ++
            leBytes 3 (orZero p.2.entryCount) ++ leBytes 2 (orZero p.2.addCount) ++ leBytes 1 p.2.refs ++
            leBytes 4 (orZero p.2.effectiveTime))) s)

/-! ## Blocklists and the merge engine (02) -/

/-- A delta applied to a blocklist state: an ADD makes its card present with its reason, a REMOVE makes it absent, and a card that is not
named keeps what it has; the void removals met are counted. The state that a base states, and the target state of a merge: the base of its
source list with the deltas applied in the order of the list, no void removal met before; the entries of each are those of its stored bytes,
as BaseContentCheck reads them (R23, R24, R25, R28, R33). -/
def Obligations.DeltaApplication : Prop :=
  (∀ (t : Blocklist) (v : List Nat) (es : List BlockEntry), tableWf (2 ^ 64) 0 t = true →
    es.Pairwise (fun a b => a.card < b.card) → (∀ e ∈ es, e.card < 2 ^ 64 ∧ (e.action = 1 ∨ e.action = 2)) →
    tableWf (2 ^ 64) 0 (applyDelta (t, v) es).1 = true ∧
    (∀ e ∈ es, look (applyDelta (t, v) es).1 e.card = if e.action = 1 then some e.reason else none) ∧
    (∀ c, (∀ e ∈ es, e.card ≠ c) → look (applyDelta (t, v) es).1 c = look t c) ∧
    (applyDelta (t, v) es).2.length = v.length + es.countP (fun e => decide (e.action = 2) && (look t e.card).isNone)) ∧
  (∀ es : List BlockEntry, es.Pairwise (fun a b => a.card < b.card) → (∀ e ∈ es, e.card < 2 ^ 64) →
    tableWf (2 ^ 64) 0 (ofBase es) = true ∧ (∀ e ∈ es, look (ofBase es) e.card = some e.reason) ∧
    (∀ c, (∀ e ∈ es, e.card ≠ c) → look (ofBase es) c = none)) ∧
  (∀ (m : Memory) (r : ContentObject) (n : Nat), r.entryCount = some n →
    storedEntries m r = blockEntries r.kind n (objectBytes m r 0 r.declaredSize)) ∧
  (∀ (s : State) (j : MergeJob) (b : Nat) (ids : List Nat) (base : ContentObject) (deltas : List ContentObject),
    j.sources = b :: ids → look s.objects b = some base → ids.map (look s.objects) = deltas.map some →
    mergedState s j = deltas.foldl (fun acc d => applyDelta acc (storedEntries s.content d)) (ofBase (storedEntries s.content base), []))

/-- MERGE: the refusals in their order, else a BUILDING result in the lowest unused entry with the blocks of the space estimate, a
reference on every source, and the engine RUNNING (R28 to R31; which blocks of the pool are taken is log entry 9). -/
def Obligations.MergeStart : Prop :=
  ∀ (s : State) (tag : Byte), Held s tag .merge →
    ((∀ b, s.block = some b → b.head = b.base) → exec .merge s = .next (replied 0x88 tag .wrongState [] s)) ∧
    (∀ b, s.block = some b → b.head ≠ b.base →
      (s.merge ≠ none → exec .merge s = .next (replied 0x88 tag .busy [] s)) ∧
      (∀ base_, s.merge = none → look s.objects b.baseObject = some base_ → ∀ size n : Nat,
        size = min (base_.declaredSize + 9 * (b.chain.map (fun d => ((look s.objects d).bind ContentObject.addCount).getD 0)).sum)
          3145728 → n = (size + 1023) / 1024 →
        (objectOf s .base .staged ≠ none ∨ unusedObject s = none ∨ s.pool.length < n →
          exec .merge s = .next (replied 0x88 tag .noSpace [] s)) ∧
        (∀ id, objectOf s .base .staged = none → unusedObject s = some id → n ≤ s.pool.length →
          exec .merge s = .next (replied 0x88 tag .ok (leBytes 1 id ++ leBytes 2 b.head ++ leBytes 2 n)
            { (b.baseObject :: b.chain).foldl (fun u d => takeRef d u)
                { s with objects := put s.objects id ⟨.base, b.head, size, 0, 0, s.pool.take n, none, none, .building, 0, none⟩,
                         pool := s.pool.drop n } with
              merge := some ⟨id, b.head, b.baseObject :: b.chain, 0, 0⟩ }))))

/-- MERGE_PROGRESS writes the next entries of the target state (DeltaApplication) in card order; each adds 1 to entries written and 9 to
bytes received, and no byte outside the result's entries changes (R32, R33; how many entries a command writes is its operand, and that the
void removals met so far are those up to the last card written, log entry 25). -/
def Obligations.MergeProgressWritesEntries : Prop :=
  ∀ (s : State) (j : MergeJob) (r : ContentObject) (n : Nat) (m : Blocklist × List Nat), s.merge = some j →
    look s.objects j.result = some r → m = mergedState s j → 0 < n → j.entriesWritten + n ≤ m.1.length →
    j.entriesWritten + n ≤ 349523 → (∀ b ∈ r.blocks, b < 4096) → 16 + 9 * (j.entriesWritten + n) ≤ 1024 * r.blocks.length →
    ∃ c v, exec (.mergeProgress n) s = .next { s with
        content := c, objects := put s.objects j.result { r with received := r.received + 9 * n },
        merge := some ⟨j.result, j.target, j.sources, j.entriesWritten + n, v⟩ } ∧
      writeObject r (16 + 9 * j.entriesWritten)
        (((m.1.drop j.entriesWritten).take n).flatMap (fun p => leBytes 8 p.1 ++ leBytes 1 p.2)) s.content = some c ∧
      (∀ e, m.1[j.entriesWritten + n - 1]? = some e → v = m.2.countP (fun card => decide (card ≤ e.1))) ∧
      (∀ a : Nat, (∀ i < 9 * n, byteAddress r (16 + 9 * j.entriesWritten + i) ≠ some a) → readByte c a = readByte s.content a)

/-- MERGE_TOO_LARGE, when 349,523 entries are written and the target state has more cards, frees the result; MERGE_COMPLETE, when every
entry is written, stages the result with its header, size, CRC-32 and entry count and returns its surplus blocks, or frees it when a base is
STAGED; in each the references are dropped, the engine is IDLE, the report follows, then the RETIRING sources without a reference; neither
does anything before its point (R34, R35, R4, R38). The order of the pool is log entry 9's, that of several OBJECT_RETIRED log entry 12's,
the void removals reported are log entry 25's, and that a command which cannot come about changes nothing is log entry 1's. -/
def Obligations.MergeEnds : Prop :=
  (∀ (s : State) (j : MergeJob) (r : ContentObject), s.merge = some j → look s.objects j.result = some r →
    (j.entriesWritten = 349523 → 349523 < (mergedState s j).1.length →
      exec .mergeTooLarge s = .next (retireSources j.sources (submit (.mergeFailed j.result j.target .tooLarge 349523)
        { j.sources.foldl (fun t d => releaseRef d t)
            { s with objects := erase s.objects j.result, pool := s.pool ++ r.blocks } with merge := none }))) ∧
    (j.entriesWritten ≠ 349523 ∨ (mergedState s j).1.length ≤ 349523 → exec .mergeTooLarge s = .next s) ∧
    (j.entriesWritten ≠ (mergedState s j).1.length ∨ 349523 < j.entriesWritten → exec .mergeComplete s = .next s)) ∧
  (∀ (s : State) (j : MergeJob) (r : ContentObject) (n keep : Nat), s.merge = some j →
    look s.objects j.result = some r → n = j.entriesWritten → n = (mergedState s j).1.length → n ≤ 349523 → (∀ b ∈ r.blocks, b < 4096) →
    16 + 9 * n ≤ 1024 * r.blocks.length → keep = (16 + 9 * n + 1023) / 1024 →
    ∃ c, writeObject r 0 (leBytes 4 0x5A3C0001 ++ leBytes 2 2 ++ leBytes 4 j.target ++ leBytes 4 n ++ leBytes 2 0) s.content = some c ∧
      (∀ a : Nat, (∀ i < 16, byteAddress r i ≠ some a) → readByte c a = readByte s.content a) ∧
      ∀ written : State, written = { s with
          content := c, pool := s.pool ++ r.blocks.drop keep,
          objects := put s.objects j.result { r with
            generation := j.target, declaredSize := 16 + 9 * n, declaredCrc := crc32 (objectBytes c r 0 (16 + 9 * n)),
            received := 16 + 9 * n, blocks := r.blocks.take keep, entryCount := some n } } →
        (objectOf written .base .staged = none → exec .mergeComplete s = .next (retireSources j.sources
          (submit (.mergeDone j.result j.target n (16 + 9 * n) (mergedState s j).2.length)
            { j.sources.foldl (fun t d => releaseRef d t)
                (modObject j.result (fun q => { q with state := .staged }) written) with merge := none }))) ∧
        (objectOf written .base .staged ≠ none → exec .mergeComplete s = .next (retireSources j.sources
          (submit (.mergeFailed j.result j.target .superseded n)
            { j.sources.foldl (fun t d => releaseRef d t) (freeObject j.result written) with merge := none })))) ∧
  (∀ (ids : List Nat) (s : State), retireSources ids s = ids.foldl (fun t o => retireIfUnused o t) s) ∧
  (∀ (s : State) (o : Nat) (r : ContentObject), look s.objects o = some r →
    (r.state = .retiring → r.refs = 0 → retireIfUnused o s = submit (.objectRetired o r.kind r.generation)
      { s with objects := erase s.objects o, pool := s.pool ++ r.blocks }) ∧
    (r.state ≠ .retiring ∨ r.refs ≠ 0 → retireIfUnused o s = s))

/-! ## Fleet roster (03) -/

/-- EXPECT_VEHICLE: the refusals; a record that exists takes the lane and departure time, and its slots end as MOVED when the lane differs;
else a new EXPECTED record in the lowest unused entry or in the place of an evicted one; which entry is evicted: of the DEPARTED and
UNREACHABLE ones that with the oldest last-heard time, of equal ones the lowest (R39, R41, R48). -/
def Obligations.ExpectVehicleOutcome : Prop :=
  (∀ (s : State) (tag : Byte) (number lane departure : Nat), Held s tag (.expectVehicle number lane departure) →
    (number = 0 ∨ 65535 ≤ number ∨ 6 ≤ lane → exec .expectVehicle s = .next (replied 0x8A tag .badField [] s)) ∧
    (∀ i : LaneIx, 1 ≤ number → number < 65535 → lane = i.val →
      ((s.lane i).state = .off → exec .expectVehicle s = .next (replied 0x8A tag .laneOff [] s)) ∧
      ((s.lane i).state ≠ .off →
        (∀ (v : Nat) (r : Vehicle) (u : State), vehicleAt s number = some v → look s.vehicles v = some r →
          u = { s with vehicles := put s.vehicles v { r with
            lane := i, departure := absentZero departure, wakeAttempts := 0,
            state := if r.state = .present then .present else .expected } } →
          (r.lane = i → exec .expectVehicle s = .next (chooseAll (replied 0x8A tag .ok (leBytes 1 v) u))) ∧
          (r.lane ≠ i → exec .expectVehicle s =
            .next (chooseAll (replied 0x8A tag .ok (leBytes 1 v) (endVehicleSlots v .moved u))))) ∧
        (∀ v : Nat, vehicleAt s number = none → lowestUnused 0 s.vehicles = v → v < 256 →
          exec .expectVehicle s = .next (chooseAll (replied 0x8A tag .ok (leBytes 1 v) { s with
            vehicles := put s.vehicles v ⟨number, i, .expected, absentZero departure, [], s.clock.count, 0, 0⟩ }))) ∧
        (∀ (v : Nat) (r : Vehicle), vehicleAt s number = none → 256 ≤ lowestUnused 0 s.vehicles →
          vehicleToEvict s = some (v, r) →
          exec .expectVehicle s = .next (chooseAll (replied 0x8A tag .ok (leBytes 1 v)
            { r.validators.foldl (fun t j => modValidator j (fun x => { x with vehicle := none }) t) s with
              vehicles := put (erase s.vehicles v) v ⟨number, i, .expected, absentZero departure, [], s.clock.count, 0, 0⟩,
              vehicleFull := false }))) ∧
        (vehicleAt s number = none → 256 ≤ lowestUnused 0 s.vehicles → vehicleToEvict s = none →
          exec .expectVehicle s = .next (replied 0x8A tag .noSpace [] s))))) ∧
  (∀ s : State, RosterOk s →
    Oldest Vehicle.lastHeard s.vehicles (fun r => r.state = .departed ∨ r.state = .unreachable) (vehicleToEvict s))

/-- SET_DEPARTURE replaces the departure time alone; DEPART_VEHICLE takes the vehicle to DEPARTED with cause REQUEST, and leaves a
DEPARTED one as it is; both refuse an impossible number and a number without a record (R42). -/
def Obligations.DepartureRequests : Prop :=
  ∀ (s : State) (tag : Byte) (number departure : Nat),
    (Held s tag (.setDeparture number departure) →
      (number = 0 ∨ 65535 ≤ number → exec .setDeparture s = .next (replied 0x8B tag .badField [] s)) ∧
      (1 ≤ number → number < 65535 → vehicleAt s number = none → exec .setDeparture s = .next (replied 0x8B tag .notFound [] s)) ∧
      (∀ v r, 1 ≤ number → number < 65535 → vehicleAt s number = some v → look s.vehicles v = some r →
        exec .setDeparture s = .next (replied 0x8B tag .ok []
          { s with vehicles := put s.vehicles v { r with departure := absentZero departure } }))) ∧
    (Held s tag (.departVehicle number) →
      (number = 0 ∨ 65535 ≤ number → exec .departVehicle s = .next (replied 0x8C tag .badField [] s)) ∧
      (1 ≤ number → number < 65535 → vehicleAt s number = none → exec .departVehicle s = .next (replied 0x8C tag .notFound [] s)) ∧
      (∀ v r, 1 ≤ number → number < 65535 → vehicleAt s number = some v → look s.vehicles v = some r →
        (r.state = .departed → exec .departVehicle s = .next (chooseAll (replied 0x8C tag .ok [] s))) ∧
        (r.state ≠ .departed → exec .departVehicle s = .next (chooseAll (replied 0x8C tag .ok [] (depart v .request s))))))

/-- A departure: every slot of the vehicle ends with VEHICLE_GONE first, as SlotEndOutcome has it, then the record is DEPARTED and keeps the
rest, then VEHICLE_GONE is reported, then MISSED_DEPARTURE with the MISSED flags when validators are behind; without bound slots nothing
else happens (R46, R105). -/
def Obligations.DepartureEffects : Prop :=
  ∀ (s : State) (v : Nat) (r : Vehicle) (cause : DepartCause), look s.vehicles v = some r →
    (∀ k b, ((depart v cause s).slot k).binding = some b → b.vehicle ≠ v) ∧
    (∃ q, look (depart v cause s).vehicles v = some q ∧ q.state = .departed ∧ q.number = r.number ∧ q.lane = r.lane ∧
      q.departure = r.departure ∧ q.validators = r.validators ∧ q.lastHeard = r.lastHeard) ∧
    (∀ (behind : List (Nat × Nat × Nat)) (u : State), (∀ k b, (s.slot k).binding = some b → b.vehicle ≠ v) →
      behind = r.validators.filterMap (fun i => (look s.validators i).bind
        (fun x => if 0 < x.lag then some (i, x.serial, x.lag) else none)) →
      u = submit (.vehicleGone r.number r.lane r.state cause) { s with vehicles := put s.vehicles v { r with state := .departed } } →
      (behind = [] → depart v cause s = u) ∧
      (behind ≠ [] → depart v cause s = submit (.missedDeparture r.number (behind.map Prod.snd))
        (behind.foldl (fun t p => modValidator p.1 (fun x => { x with flags := { x.flags with missed := true } }) t) u))) ∧
    (∀ (behind : List (Nat × Nat × Nat)) (q : Vehicle) (w u : State), w = endVehicleSlots v .vehicleGone s → look w.vehicles v = some q →
      behind = r.validators.filterMap (fun i => (look w.validators i).bind
        (fun x => if 0 < x.lag then some (i, x.serial, x.lag) else none)) →
      u = submit (.vehicleGone r.number r.lane r.state cause) { w with vehicles := put w.vehicles v { q with state := .departed } } →
      SlotsEnded (fun b => b.vehicle = v) .vehicleGone s w ∧ (∃ n, q = { r with boundSlots := n }) ∧
      (behind = [] → depart v cause s = u) ∧
      (behind ≠ [] → depart v cause s = submit (.missedDeparture r.number (behind.map Prod.snd))
        (behind.foldl (fun t p => modValidator p.1 (fun x => { x with flags := { x.flags with missed := true } }) t) u)))

/-- The yard clock counts on by one a second and stops at its largest value; at a new yard time, unless time is unset, every PRESENT vehicle
whose age has reached the silence limit departs and any other stays, and so for one vehicle at SILENCE_LIMIT_REACHED (R44, R63). That the
limit in force is the one the last check took up, and the ascending order of several departures, are log entry 13's; that an expiry moves
internal time on to its deadline is log entry 4's, and that one which cannot come about changes nothing log entry 1's. -/
def Obligations.ClockAndSilence : Prop :=
  (∀ (s u : State), s.clock.count < 4294967295 →
    u = { s with now := max s.now s.clock.nextSecond,
                 clock := ⟨s.clock.count + 1, s.clock.unset, s.clock.nextSecond + 1000000⟩ } →
    (s.clock.unset = true → exec .yardClockTick s = .next (chooseAll u)) ∧
    (s.clock.unset = false → exec .yardClockTick s = .next (chooseAll (silenceCheckAll u)))) ∧
  (∀ s : State, s.clock.count = 4294967295 →
    exec .yardClockTick s = .next (chooseAll { s with
      now := max s.now s.clock.nextSecond, clock := ⟨4294967295, s.clock.unset, s.clock.nextSecond + 1000000⟩ })) ∧
  (∀ (s : State) (v : Nat) (r : Vehicle), look s.vehicles v = some r →
    (s.clock.unset = true → exec (.silenceLimitReached v) s = .next s) ∧
    (s.clock.unset = false →
      (r.state = .present → s.silenceApplied ≤ s.clock.count - r.lastHeard →
        exec (.silenceLimitReached v) s = .next (chooseAll (depart v .silence s))) ∧
      (r.state ≠ .present ∨ s.clock.count - r.lastHeard < s.silenceApplied →
        exec (.silenceLimitReached v) s = .next (chooseAll s)))) ∧
  (∀ s : State, s.clock.unset = true → silenceCheckAll s = s) ∧
  (∀ (s t : State), RosterOk s → s.clock.unset = false → t = silenceCheckAll s →
    t.silenceApplied = s.policy.silenceLimit ∧ Inside s t ∧
    (∀ v r, look s.vehicles v = some r →
      (r.state = .present → s.policy.silenceLimit ≤ s.clock.count - r.lastHeard →
        ∃ q, look t.vehicles v = some q ∧ q.state = .departed ∧ q.number = r.number ∧ q.lane = r.lane ∧ q.departure = r.departure ∧
          q.validators = r.validators ∧ q.lastHeard = r.lastHeard) ∧
      (r.state ≠ .present ∨ s.clock.count - r.lastHeard < s.policy.silenceLimit → look t.vehicles v = some r)) ∧
    (∀ v, look s.vehicles v = none → look t.vehicles v = none) ∧
    t = (s.vehicles.map Prod.fst).foldl (fun u v => match look u.vehicles v with
      | none => u
      | some r => if r.state = .present ∧ u.silenceApplied ≤ u.clock.count - r.lastHeard then depart v .silence u else u)
      { s with silenceApplied := s.policy.silenceLimit })

/-- READ_VEHICLE, READ_VALIDATOR, READ_RANKING, READ_SLOTS and READ_LANE return their records as they stand and change nothing; each refuses
a name that cannot be, one without an entry, or an OFF lane (R61, R84, R109, R159, R160, R161, R163, R172; the phase of a lane that is not
ACTIVE is log entry 16's, the mark of a FREE slot log entry 15's, the segment index of a step that is not SEG log entry 39's, that the
milliseconds since the put time are rounded down log entry 3's). -/
def Obligations.ReadRequestsReturnRecords : Prop :=
  (∀ (s : State) (tag : Byte),
    (∀ number, Held s tag (.readVehicle number) →
      (number = 0 ∨ 65535 ≤ number → exec .readVehicle s = .next (replied 0x8D tag .badField [] s)) ∧
      (1 ≤ number → number < 65535 → vehicleAt s number = none → exec .readVehicle s = .next (replied 0x8D tag .notFound [] s)) ∧
      (∀ v r, 1 ≤ number → number < 65535 → vehicleAt s number = some v → look s.vehicles v = some r →
        exec .readVehicle s = .next (replied 0x8D tag .ok (leBytes 1 v ++ leBytes 2 r.number ++ leBytes 1 r.lane ++
          leBytes 1 r.state.code ++ leBytes 4 (orZero r.departure) ++ leBytes 4 r.lastHeard ++ leBytes 1 r.wakeAttempts ++
          leBytes 1 r.boundSlots ++ leBytes 1 r.validators.length ++
          r.validators.flatMap (fun i => leBytes 4 (((look s.validators i).map Validator.serial).getD 0))) s))) ∧
    (∀ serial, Held s tag (.readValidator serial) →
      (serial = 0 → exec .readValidator s = .next (replied 0x8E tag .badField [] s)) ∧
      (serial ≠ 0 → validatorAt s serial = none → exec .readValidator s = .next (replied 0x8E tag .notFound [] s)) ∧
      (∀ i v, serial ≠ 0 → validatorAt s serial = some i → look s.validators i = some v →
        exec .readValidator s = .next (replied 0x8E tag .ok (leBytes 2 i ++ leBytes 4 v.serial ++
          leBytes 2 (vehicleNumber s v.vehicle) ++ leBytes 1 v.position ++ leBytes 2 (orZero v.heldFare) ++
          leBytes 2 (orZero v.heldBlock) ++ leBytes 1 v.lag ++ leBytes 1 v.plan.code ++ leBytes 1 v.cls ++
          int16Bytes (v.slack.getD 0) ++ boolByte v.slack.isSome ++ leBytes 1 v.prevSign.code ++ leBytes 1 v.flags.code ++
          leBytes 1 (orNone (v.boundSlot.map Fin.val)) ++ leBytes 4 v.lastHeard ++ leBytes 1 v.work.length ++
          v.work.flatMap (leBytes 1)) s))) ∧
    (∀ (start count from_ upTo : Nat) (es : List RankedEntry), Held s tag (.readRanking start count) →
      from_ = min start 1023 → upTo = max 1 (min count 64) → es = (s.scanner.ranked.drop from_).take upTo →
      exec .readRanking s = .next (replied 0x8F tag (if from_ = start ∧ upTo = count then .ok else .clamped)
        (leBytes 2 s.scanner.ranked.length ++ leBytes 4 s.scanner.completedAt ++ boolByte s.scanner.run.isSome ++
          leBytes 1 es.length ++ es.flatMap (fun e => leBytes 2 e.index ++ leBytes 4 e.serial ++ leBytes 1 e.lane ++
            leBytes 1 e.cls ++ int16Bytes e.slack ++ leBytes 1 e.plan.code)) s)) ∧
    (Held s tag .readSlots → exec .readSlots s = .next (replied 0x98 tag .ok
      (leBytes 1 s.policy.retryLimit ++ leBytes 1 s.policy.pendingLimit ++ leBytes 1 s.policy.relayDepth ++
        allSlots.flatMap (slotRecord s)) s)) ∧
    (∀ lane, Held s tag (.readLane lane) →
      (6 ≤ lane → exec .readLane s = .next (replied 0x92 tag .badField [] s)) ∧
      (∀ i : LaneIx, lane = i.val →
        ((s.lane i).state = .off → exec .readLane s = .next (replied 0x92 tag .laneOff [] s)) ∧
        ((s.lane i).state ≠ .off → exec .readLane s = .next (replied 0x92 tag .ok (laneRecord s i) s))))) ∧
  (∀ (s : State) (k : SlotIx),
    ((s.slot k).binding = none → slotRecord s k =
      leBytes 27 0 ++ leBytes 1 (s.slot k).lastEnd.code ++ boolByte (s.slot k).unconfirmed ++ leBytes 2 0) ∧
    (∀ b, (s.slot k).binding = some b → slotRecord s k =
      leBytes 1 (match b.state with
        | .send => 1
        | .await => 2
        | .probe => 3) ++
      leBytes 1 (match b.step with
        | .opening => 1
        | .seg _ => 2
        | .close => 3
        | .abandon => 4) ++
      leBytes 2 (match b.step with
        | .seg n => n
        | _ => 0) ++
      leBytes 2 b.validator ++ leBytes 4 b.serial ++ leBytes 2 (((look s.vehicles b.vehicle).map Vehicle.number).getD 0) ++
      leBytes 1 b.lane.val ++ leBytes 1 b.object ++ leBytes 2 b.segmentSize ++ leBytes 2 b.segmentCount ++ boolByte b.seqBit ++
      leBytes 1 b.errors ++ leBytes 1 b.pendings ++ leBytes 1 b.closeAttempts ++ leBytes 4 b.segmentsSent ++ boolByte b.superseded ++
      leBytes 1 (s.slot k).lastEnd.code ++ boolByte (s.slot k).unconfirmed ++
      leBytes 2 (match b.putTime with
        | none => 0
        | some t => min ((s.now - t) / 1000) 65535))) ∧
  (∀ (s : State) (i : LaneIx) (l : Lane), l = s.lane i → laneRecord s i =
    leBytes 1 l.state.code ++
    leBytes 1 (match l.phase with
      | .none => 0
      | .beacon => 1
      | .window => 2
      | .service => 3) ++
    paramBytes l.params ++ leBytes 2 l.efficiency ++ leBytes 4 l.useful ++ leBytes 4 l.spent ++ leBytes 1 l.answers.length ++
    leBytes 1 l.acks.length ++ leBytes 1 l.wake.length ++ l.wake.flatMap (leBytes 2) ++ boolByte l.arrival ++ boolByte l.lineAsserted ++
    leBytes 1 (match l.quietTimer with
      | .stopped => 0
      | .running _ => 1
      | .expired => 2) ++
    boolByte l.frameWake ++ leBytes 1 l.burst ++ boolByte l.fault ++ leBytes 2 l.breaks ++
    leBytes 1 (allSlots.countP (fun k => decide ((s.slot k).binding.map Binding.lane = some i))) ++ leBytes 1 l.lastServed.val) ∧
  (∀ p : LaneParams, paramBytes p = leBytes 2 p.divisor ++ leBytes 2 p.roundLength ++ leBytes 1 p.announceWindow ++
    leBytes 1 p.preamble ++ leBytes 2 p.replyTimeout ++ leBytes 2 p.turnaround ++ leBytes 1 p.slotsPerLane ++ leBytes 2 p.segmentSize ++
    leBytes 2 p.guardMargin ++ leBytes 2 p.atRiskLimit ++
    leBytes 1 (match p.crossing with
      | .none => 0
      | .falling => 1
      | .rising => 2
      | .both => 3) ++
    leBytes 2 p.initialEfficiency ++ leBytes 2 p.quietDelay ++ leBytes 2 p.quietMaximum ++ leBytes 1 p.burstRounds ++
    leBytes 1 (match p.presence with
      | .none => 0
      | .edge => 1
      | .edgeLevel => 2)) ∧
  ([Sign.none, .nonneg, .neg].map Sign.code = [0, 1, 2] ∧ ∀ f : StickyFlags, f.code =
    (if f.atRisk then 1 else 0) + (if f.negCrossed then 2 else 0) + (if f.missed then 4 else 0) + (if f.rejected then 8 else 0) +
      (if f.ahead then 16 else 0))

/-- CLEAR_FLAGS: refused without a selection, with an unknown flag, or for a serial without an entry; else the selected flags are clear on
the entries named and nothing else of them changes, the reply counts the entries that changed, and a dispatch walk is due when a REJECTED
flag was cleared (R83, R86). -/
def Obligations.ClearFlagsOutcome : Prop :=
  ∀ (s : State) (tag : Byte) (serial sel : Nat), Held s tag (.clearFlags serial sel) →
    (sel = 0 ∨ 32 ≤ sel → exec .clearFlags s = .next (replied 0x90 tag .badField [] s)) ∧
    (1 ≤ sel → sel < 32 → serial ≠ 0 → validatorAt s serial = none →
      exec .clearFlags s = .next (replied 0x90 tag .notFound [] s)) ∧
    (∀ (n : Nat) (due : Bool), 1 ≤ sel → sel < 32 → serial = 0 ∨ validatorAt s serial ≠ none →
      n = s.validators.countP (fun p => decide (serial = 0 ∨ p.2.serial = serial) &&
          decide (p.2.flags ≠ p.2.flags.without sel)) →
      (due = true ↔ s.dispatchDue = true ∨
        ∃ p ∈ s.validators, (serial = 0 ∨ p.2.serial = serial) ∧ p.2.flags.rejected = true ∧ sel.testBit 3 = true) →
      exec .clearFlags s = .next (replied 0x90 tag .ok (leBytes 2 n) { s with
        validators := s.validators.map (fun p => if serial = 0 ∨ p.2.serial = serial
          then (p.1, { p.2 with flags := p.2.flags.without sel }) else p),
        dispatchDue := due })) ∧
    (∀ f : StickyFlags, f.without sel = ⟨f.atRisk && !sel.testBit 0, f.negCrossed && !sel.testBit 1, f.missed && !sel.testBit 2,
      f.rejected && !sel.testBit 3, f.ahead && !sel.testBit 4⟩)

/-- The work list and BLOCK lag of held generations: the BLOCK items by the table, then the FARE item; held generations that are written
take a validator's entry to both, set its AHEAD flag where a new value is above the published one, with GEN_AHEAD, and give VALIDATOR_CURRENT
when the list becomes empty (R55, R56, R57, R58, R60; that GEN_AHEAD comes FARE first is log entry 14). -/
def Obligations.WorkListRule : Prop :=
  (∀ (s : State) (heldFare heldBlock : Option Nat),
    (s.block = none → workList s heldFare heldBlock = fareItems s heldFare ∧ blockLag s heldBlock = 0) ∧
    (∀ b, s.block = some b →
      ((heldBlock = none ∨ ∃ g, heldBlock = some g ∧ g < b.base) →
        workList s heldFare heldBlock = b.baseObject :: b.chain ++ fareItems s heldFare ∧
          blockLag s heldBlock = b.head - b.base + 1) ∧
      (∀ g, heldBlock = some g → b.base ≤ g →
        workList s heldFare heldBlock = b.chain.filter (fun d => decide (g < generationOf s d)) ++ fareItems s heldFare ∧
          blockLag s heldBlock = b.head - g)) ∧
    (s.fare = none → fareItems s heldFare = []) ∧
    (∀ f, s.fare = some f →
      (heldFare = none ∨ (∃ g, heldFare = some g ∧ g < f.generation) → fareItems s heldFare = [f.image]) ∧
      (∀ g, heldFare = some g → f.generation ≤ g → fareItems s heldFare = []))) ∧
  (∀ (s : State) (i : Nat) (v : Validator) (fare block : Option Nat) (fareNew blockNew : Bool) (work : List Nat),
    look s.validators i = some v →
    (fareNew = true ↔ fare ≠ v.heldFare ∧ ∃ g f, fare = some g ∧ s.fare = some f ∧ f.generation < g) →
    (blockNew = true ↔ block ≠ v.heldBlock ∧ ∃ g b, block = some g ∧ s.block = some b ∧ b.head < g) →
    work = workList s fare block →
    writeHeld i fare block s =
      ({ s with validators := put s.validators i { v with
          heldFare := fare, heldBlock := block, work := work, lag := blockLag s block,
          flags := { v.flags with ahead := v.flags.ahead || fareNew || blockNew } } },
        (if fareNew = true then [.genAhead v.serial .fare (orZero fare) (orZero (s.fare.map FareRecord.generation))] else []) ++
        (if blockNew = true then [.genAhead v.serial .block (orZero block) (orZero (s.block.map BlockRecord.head))] else []) ++
        (if v.work ≠ [] ∧ work = [] then [.validatorCurrent v.serial (vehicleNumber s v.vehicle) fare block] else [])))

/-! ## Clock and scanner (04) -/

/-- SET_TIME sets the count, clears the time-unset mark and restarts the second; the reply carries the count and mark before; a running
scan goes on with what it took; the first one after a reset restamps every last-heard time, and a new value makes the silence check (R44,
R64, R163; the limit that check applies and the order of its departures are log entry 13's). -/
def Obligations.SetTimeSetsTheClock : Prop :=
  ∀ (s u : State) (tag : Byte) (time : Nat), Held s tag (.setTime time) →
    u = { s with
      clock := ⟨time, false, s.now + 1000000⟩,
      vehicles := if s.clock.unset = true then s.vehicles.map (fun p => (p.1, { p.2 with lastHeard := time })) else s.vehicles,
      validators := if s.clock.unset = true then s.validators.map (fun p => (p.1, { p.2 with lastHeard := time }))
        else s.validators } →
    (time = s.clock.count → exec .setTime s =
      .next (chooseAll (replied 0x96 tag .ok (leBytes 4 s.clock.count ++ boolByte s.clock.unset) u))) ∧
    (time ≠ s.clock.count → exec .setTime s =
      .next (chooseAll (replied 0x96 tag .ok (leBytes 4 s.clock.count ++ boolByte s.clock.unset) (silenceCheckAll u)))) ∧
    ∃ t, exec .setTime s = .next t ∧ t.clock = ⟨time, false, s.now + 1000000⟩ ∧ t.scanner = s.scanner ∧ t.policy = s.policy ∧
      t.host.replyPlace = some ⟨0x96, tag, .ok, leBytes 4 s.clock.count ++ boolByte s.clock.unset⟩ ∧ t.host.processor = .idle ∧
      (s.clock.unset = true → (∀ v r, look t.vehicles v = some r → r.lastHeard = time) ∧
        (∀ i v, look t.validators i = some v → v.lastHeard = time))

/-- A scan starts when its timer expires and on SCAN_NOW while IDLE: the inputs are taken after each lane's efficiency is updated, the
timer restarts, and a running scan refuses SCAN_NOW with BUSY (R65 to R68). -/
def Obligations.ScanStarts : Prop :=
  (∀ l : Lane,
    (l.state = .off → sampled l = l ∧ laneInputs l = none) ∧
    (l.state ≠ .off → laneInputs l = some ⟨l.params.divisor, l.params.segmentSize, l.params.guardMargin, l.params.atRiskLimit,
      l.params.crossing, l.efficiency⟩) ∧
    (l.state ≠ .off → l.spent < 4096 → sampled l = l) ∧
    (l.state ≠ .off → 4096 ≤ l.spent → sampled l = { l with
      efficiency := max 100 (min 1000 ((3 * l.efficiency + 1000 * l.useful / l.spent) / 4)), useful := 0, spent := 0 })) ∧
  (∀ (s u : State), s.scanner.run = none →
    u = { s with
      lanes := s.lanes.map sampled,
      scanner := { s.scanner with
        run := some ⟨s.clock.count, s.clock.unset, s.policy.urgentLag, (s.lanes.map sampled).map laneInputs, 0, [], 0, 0⟩,
        periodEnd := s.now + 1000000 * s.policy.scanPeriod } } →
    (∀ tag, Held s tag .scanNow → exec .scanNow s = .next (replied 0x97 tag .ok [] u)) ∧
    (s.scanner.periodEnd ≤ s.now → exec .scanPeriodExpiry s = .next u)) ∧
  (∀ (s : State) (tag : Byte), s.scanner.run ≠ none → Held s tag .scanNow →
    exec .scanNow s = .next (replied 0x97 tag .busy [] s))

/-- The turn of a validator entry: an unused one is skipped, one without work, vehicle or lane inputs gets no slack, and any other gets
airtime, slack, plan, class, sign and flags by the arithmetic, its reports, and its place in the new list when it qualifies (R70 to R79;
that the skipped entries before it need no turn is log entry 24). -/
def Obligations.ScanEntryTurnOutcome : Prop :=
  ∀ (s : State) (run : ScanRun) (i : Nat), s.scanner.run = some run → run.cursor ≤ i → i < 1024 →
    (∀ j v, look s.validators j = some v → j < run.cursor ∨ i ≤ j) →
    (look s.validators i = none → exec (.scanEntryTurn i) s =
      .next { s with scanner := { s.scanner with run := some { run with cursor := i + 1 } } }) ∧
    (∀ v, look s.validators i = some v →
      (v.work = [] ∨ v.vehicle.bind (look s.vehicles) = none ∨
          (∃ veh, v.vehicle.bind (look s.vehicles) = some veh ∧ (veh.state = .departed ∨ run.inputs.get veh.lane = none)) →
        exec (.scanEntryTurn i) s = .next { s with
          validators := put s.validators i { v with slack := none, prevSign := .none, plan := .full, cls := 1 },
          scanner := { s.scanner with run := some { run with cursor := i + 1, walked := run.walked + 1 } } }) ∧
      (∀ (veh : Vehicle) (inp : LaneInputs) (wire : List Nat → Nat) (slack : List Nat → Int) (plan : Plan) (x : Int) (v' : Validator)
          (r : SlackReport),
        v.work ≠ [] → v.vehicle.bind (look s.vehicles) = some veh → veh.state ≠ .departed → run.inputs.get veh.lane = some inp →
        (∀ ids : List Nat, wire ids =
          (ids.map (fun o => ((look s.objects o).map ContentObject.declaredSize).getD 0)).sum +
            24 * (ids.map (fun o => ceilDiv (((look s.objects o).map ContentObject.declaredSize).getD 0) inp.segmentSize)).sum +
            96 * ids.length) →
        (∀ ids : List Nat, veh.departure = none ∨ run.unset = true → slack ids = 32767) →
        (∀ (ids : List Nat) (d : Nat), veh.departure = some d → run.unset = false → slack ids = max (-32768) (min 32767
          ((d : Int) - (run.time : Int) - (inp.guardMargin : Int) -
            ((min 65535 (ceilDiv (wire ids * 10000) (921600 / inp.divisor * inp.efficiency)) : Nat) : Int)))) →
        (plan = .full ∧ x = slack v.work ∧
            (0 ≤ slack v.work ∨ (∀ o ∈ v.work, isBlock s o = true) ∨ (∀ o ∈ v.work, isBlock s o = false)) ∨
          plan = .blockOnly ∧ x = slack (v.work.filter (isBlock s)) ∧ slack v.work < 0 ∧
            (∃ o ∈ v.work, isBlock s o = true) ∧ (∃ o ∈ v.work, isBlock s o = false)) →
        v' = { v with
          plan := plan, slack := some x, cls := if run.urgentLag ≤ v.lag then 0 else if 0 ≤ x then 1 else 2,
          prevSign := if 0 ≤ x then .nonneg else .neg,
          flags := { v.flags with
            atRisk := v.flags.atRisk || decide (x < inp.atRiskLimit),
            negCrossed := v.flags.negCrossed || decide (v.prevSign = .nonneg ∧ x < 0) } } →
        r = ⟨v.serial, veh.number, veh.lane, x, plan, v.lag, veh.departure⟩ →
        exec (.scanEntryTurn i) s = .next (submitAll
          ((if v.flags.atRisk = false ∧ x < inp.atRiskLimit then [.atRisk r v'.cls] else []) ++
            (if v.prevSign = .nonneg ∧ x < 0 ∧ (inp.crossing = .falling ∨ inp.crossing = .both) then [.slackNegative r] else []) ++
            (if v.prevSign = .neg ∧ 0 ≤ x ∧ (inp.crossing = .rising ∨ inp.crossing = .both) then [.slackRecovered r] else []))
          { s with
            validators := put s.validators i v',
            scanner := { s.scanner with run := some { run with
              cursor := i + 1, walked := run.walked + 1, computed := run.computed + 1,
              newList := if (veh.state = .present ∨ veh.state = .asleep ∨ veh.state = .expected) ∧ v.flags.rejected = false
                then run.newList ++ [⟨i, v.serial, veh.lane, v'.cls, x, plan⟩] else run.newList } } })))

/-- The class of a computed entry, by lag before slack: 0 for a BLOCK lag at or above the scan's urgent lag, else 1 for a stored slack at
or above 0 and 2 for one below (R76). -/
def Obligations.ClassRule : Prop :=
  ∀ (s t : State) (run : ScanRun) (i : Nat) (v : Validator) (x : Int), s.scanner.run = some run → run.cursor ≤ i → i < 1024 →
    (∀ j u, look s.validators j = some u → j < run.cursor ∨ i ≤ j) → exec (.scanEntryTurn i) s = .next t →
    look t.validators i = some v → look s.validators i ≠ none → v.slack = some x →
    (run.urgentLag ≤ v.lag → v.cls = 0) ∧
    (v.lag < run.urgentLag → 0 ≤ x → v.cls = 1) ∧
    (v.lag < run.urgentLag → x < 0 → v.cls = 2) ∧
    (v.lag = 0 → 1 ≤ run.urgentLag → v.cls ≠ 0)

/-- When no entry in use is left to walk, SCAN_COMPLETE puts the new list, ordered by class, slack and index, in the place of the ranked
list, with the yard count as its completion time; the scanner is IDLE, SCAN_DONE follows and a dispatch walk is due (R79, R80, R81, R86;
that the scan completes as soon as no entry in use is left, whatever the cursor then stands at, is log entry 24). -/
def Obligations.ScanCompleteOutcome : Prop :=
  ∀ (s : State) (run : ScanRun), s.scanner.run = some run →
    (∀ j v, look s.validators j = some v → j < run.cursor ∨ 1024 ≤ j) →
    ∃ l : List RankedEntry, l.Perm run.newList ∧
      l.Pairwise (fun a b => a.cls < b.cls ∨ (a.cls = b.cls ∧
        ((a.cls ≠ 2 ∧ a.slack < b.slack) ∨ (a.cls = 2 ∧ b.slack < a.slack) ∨ (a.slack = b.slack ∧ a.index ≤ b.index)))) ∧
      exec .scanComplete s = .next (submit
        (.scanDone run.walked run.computed run.newList.length (run.newList.countP (fun e => decide (e.cls = 0)))
          (run.newList.countP (fun e => decide (e.cls = 1))) (run.newList.countP (fun e => decide (e.cls = 2)))
          (run.newList.countP (fun e => decide (e.plan = .blockOnly))))
        { s with
          scanner := { s.scanner with run := none, ranked := l, completedAt := s.clock.count },
          dispatchDue := true })

/-! ## Transfer slots (05) -/

/-- A dispatch walk binds the first ranked entry that can be bound to the lowest FREE slot: the reference, the slot's fields, the
validator's bound slot, the vehicle's count, and a QUIET lane that goes to STARTING; without a FREE slot or a candidate nothing is bound
(R86, R87, R88, R113, R128, R129, R131, R132; the moment of leaving QUIET that a lane keeps is log entry 21, the bytes of a frame in
progress that are spent then log entry 22, the mark that a walk is due log entry 32, that the preamble is sent at the rate taken last log
entry 17, its end in whole microseconds log entry 3). -/
def Obligations.DispatchWalkOutcome : Prop :=
  ∀ s : State, s.dispatchDue = true →
    ((∀ k, (s.slot k).binding ≠ none) → exec .dispatchWalk s = .next { s with dispatchDue := false }) ∧
    ((∀ e ∈ s.scanner.ranked, ∀ v vi veh o r, ¬Bindable s e v vi veh o r) →
      exec .dispatchWalk s = .next { s with dispatchDue := false }) ∧
    (∀ (k : SlotIx) (before_ after_ : List RankedEntry) (e : RankedEntry) (v : Validator) (vi : Nat) (veh : Vehicle) (o : Nat)
        (r : ContentObject) (l : Lane) (b : Binding),
      b = ⟨.send, .opening, e.index, v.serial, vi, veh.lane, o, l.params.segmentSize,
        ceilDiv r.declaredSize l.params.segmentSize, false, 0, 0, 0, 0, none, 0, false⟩ →
      (s.slot k).binding = none → (∀ j, j < k → (s.slot j).binding ≠ none) → s.scanner.ranked = before_ ++ e :: after_ →
      (∀ e' ∈ before_, ∀ v' vi' veh' o' r', ¬Bindable s e' v' vi' veh' o' r') → Bindable s e v vi veh o r →
      l = s.lane veh.lane →
      ∃ due : Bool, (due = true ↔ ∃ j, j ≠ k ∧ (s.slot j).binding = none) ∧
        exec .dispatchWalk s = .next (chooseAll { s with
          objects := put s.objects o { r with refs := r.refs + 1 },
          slots := s.slots.set k { s.slot k with binding := some b },
          validators := put s.validators e.index { v with boundSlot := some k },
          vehicles := put s.vehicles vi { veh with boundSlots := veh.boundSlots + 1 },
          lanes := s.lanes.set veh.lane (if l.state = .quiet then
            { l with state := .starting, phase := .none, reception := none, spent := spentAfter l 0, powerSave := false,
                     quietMaxEnd := none, leftQuiet := some s.now, quietTimer := .stopped, frameWake := false,
                     deadline := s.now + ceilDiv (l.params.preamble * 10000000) l.rate }
            else { l with quietTimer := .stopped, frameWake := false }),
          dispatchDue := due }))

/-- What a PUT and a PROBE do to their slot, also at ABANDON, and what the retirement of its object does to a slot: errors are counted
and at the retry limit end the slot, a good reply sets the count to 0, TAKEN leads to AWAIT or ends an abandoned slot, and an outcome that
the retirement left to the error count alone acts on nothing else (R92, R93, R100, R103, R104). -/
def Obligations.PutAndProbeOutcomes : Prop :=
  ∀ (s : State) (k : SlotIx) (b : Binding) (become : Binding → State), (s.slot k).binding = some b →
    (∀ q, become q = { s with slots := s.slots.set k { s.slot k with binding := some q } }) →
    (b.state = .send →
      (b.step ≠ .abandon → slotOutcome k false .taken s = become { b with
        errors := 0, state := .await, putTime := some s.now,
        fetchTime := s.now + (s.lane b.lane).params.turnaround * 1000, pendings := 0 }) ∧
      (b.step = .abandon → slotOutcome k false .taken s = endSlot k .superseded false s) ∧
      slotOutcome k false .full s = become { b with errors := 0, state := .probe } ∧
      (b.errors + 1 < s.policy.retryLimit →
        slotOutcome k false .error s = become { b with errors := b.errors + 1, state := .probe })) ∧
    (b.state = .probe →
      slotOutcome k false .ready s = become { b with errors := 0, state := .send } ∧
      slotOutcome k false .busy s = become { b with errors := 0 } ∧
      (b.errors + 1 < s.policy.retryLimit → slotOutcome k false .error s = become { b with errors := b.errors + 1 })) ∧
    (∀ countOnly, s.policy.retryLimit ≤ b.errors + 1 → slotOutcome k countOnly .error s =
      if b.step = .abandon then endSlot k .superseded true s else endSlot k .retryExhausted false s) ∧
    (∀ x, x ≠ .error → slotOutcome k true x s = become { b with errors := 0 }) ∧
    (b.errors + 1 < s.policy.retryLimit → slotOutcome k true .error s = become { b with errors := b.errors + 1 }) ∧
    (∀ o, (b.object ≠ o ∨ b.step = .close ∨ b.step = .abandon → retireSlot o s k = s) ∧
      (b.object = o → b.step ≠ .close → b.step ≠ .abandon → ∃ u, retireSlot o s k = u ∧ u = { s with slots := u.slots, lanes := u.lanes } ∧
        u.slots = (become { b with
          step := .abandon, state := if b.state = .probe then .probe else .send, pendings := 0, superseded := true }).slots ∧
        (∀ j, j ≠ b.lane → u.lane j = s.lane j) ∧
        (∀ tr c, (s.lane b.lane).transaction = some tr → tr.owner = .slot k c →
          u.lane b.lane = { s.lane b.lane with transaction := some { tr with owner := .slot k true } }) ∧
        ((∀ tr c, (s.lane b.lane).transaction = some tr → tr.owner ≠ .slot k c) → u.lane b.lane = s.lane b.lane)))

/-- What a FETCH does to its slot: ACK, and DUP of a segment, advance the step and count the payload, HOLD leads to PROBE, REFUSE, APPLIED
and a second BAD_CHECK end the slot, a first BAD_CHECK restarts the object or abandons a RETIRING one, PENDING waits on below its limit and
is an error at it, and any other outcome is an error (R91, R92, R95 to R99, R101, R102). -/
def Obligations.FetchOutcomes : Prop :=
  ∀ (s : State) (k : SlotIx) (b : Binding) (become : Binding → State), (s.slot k).binding = some b → b.state = .await →
    (∀ q, become q = { s with slots := s.slots.set k { s.slot k with binding := some q } }) →
    (b.step = .opening → slotOutcome k false (.verdict 1) s = become { b with
      step := .seg 0, seqBit := !b.seqBit, state := .send, pendings := 0, errors := 0 }) ∧
    (∀ n r, b.step = .seg n → look s.objects b.object = some r → ∀ c ∈ [1, 2], slotOutcome k false (.verdict c) s =
      { become { b with
          step := if n + 1 < b.segmentCount then .seg (n + 1) else .close, seqBit := !b.seqBit, state := .send,
          pendings := 0, errors := 0 } with
        lanes := s.lanes.set b.lane { s.lane b.lane with
          useful := addSat32 (s.lane b.lane).useful (min b.segmentSize (r.declaredSize - n * b.segmentSize)) } }) ∧
    slotOutcome k false (.verdict 3) s = become { b with errors := 0, state := .probe, pendings := 0 } ∧
    slotOutcome k false (.verdict 4) s = endSlot k .refused false s ∧
    slotOutcome k false (.verdict 5) s = endSlot k .done false s ∧
    (b.closeAttempts = 0 → objectState s b.object ≠ some .retiring → slotOutcome k false (.verdict 6) s = become { b with
      errors := 0, step := .opening, seqBit := false, closeAttempts := 1, pendings := 0, state := .send }) ∧
    (b.closeAttempts = 0 → objectState s b.object = some .retiring → slotOutcome k false (.verdict 6) s = become { b with
      errors := 0, step := .abandon, superseded := true, state := .send, pendings := 0 }) ∧
    (b.closeAttempts ≠ 0 → slotOutcome k false (.verdict 6) s = endSlot k .objectRejected false s) ∧
    (b.pendings + 1 < s.policy.pendingLimit → slotOutcome k false (.verdict 7) s = become { b with
      pendings := b.pendings + 1, errors := 0, fetchTime := s.now + (s.lane b.lane).params.turnaround * 1000 }) ∧
    (s.policy.pendingLimit ≤ b.pendings + 1 → b.errors + 1 < s.policy.retryLimit →
      slotOutcome k false (.verdict 7) s = become { b with errors := b.errors + 1, pendings := 0, state := .send }) ∧
    (s.policy.pendingLimit ≤ b.pendings + 1 → s.policy.retryLimit ≤ b.errors + 1 → b.step ≠ .abandon →
      slotOutcome k false (.verdict 7) s = endSlot k .retryExhausted false s) ∧
    (b.errors + 1 < s.policy.retryLimit → slotOutcome k false .error s = become { b with errors := b.errors + 1 })

/-- The end of a binding: the delivery of DONE, whose AHEAD flag and reports are those of writing the held generation (WorkListRule), or
the REJECTED flag, the bound slot and the count, the FREE slot with its last end condition, TRANSFER_ENDED first of its reports, the
reference dropped and a RETIRING object freed with its last one; a dispatch walk is due, and a transaction in flight belongs to no slot any
more; and the slots that one event ends, in ascending number (R19, R20, R57, R58, R60, R101, R105, R106, R107; that freed blocks return at
the end of the pool is log entry 9, that GEN_AHEAD comes FARE first log entry 14). -/
def Obligations.SlotEndOutcome : Prop :=
  (∀ (s t : State) (k : SlotIx) (c : EndCond) (u : Bool) (b : Binding) (r : ContentObject) (v : Validator) (veh : Vehicle),
    BlocksOk s → (s.slot k).binding = some b → look s.objects b.object = some r → look s.validators b.validator = some v →
    look s.vehicles b.vehicle = some veh → t = endSlot k c u s →
    (t.slot k = ⟨none, c, u⟩ ∧ ∀ j, j ≠ k → t.slot j = s.slot j) ∧
    (∃ fare block ahead delivered, t.validators = put s.validators b.validator { v with
        boundSlot := none, heldFare := fare, heldBlock := block,
        work := if c = .done then workList s fare block else v.work, lag := if c = .done then blockLag s block else v.lag,
        flags := { v.flags with rejected := v.flags.rejected || decide (c = .refused ∨ c = .objectRejected), ahead := ahead } } ∧
      fare = (if c = .done ∧ r.kind = .fareImage then some r.generation else v.heldFare) ∧
      block = (if c = .done ∧ r.kind ≠ .fareImage then some r.generation else v.heldBlock) ∧
      (c ≠ .done → ahead = v.flags.ahead ∧ delivered = []) ∧
      (c = .done → writeHeld b.validator fare block s = ({ s with validators := put s.validators b.validator { v with
          heldFare := fare, heldBlock := block, work := workList s fare block, lag := blockLag s block,
          flags := { v.flags with ahead := ahead } } }, delivered)) ∧
      t.host = (submitAll
        (.transferEnded ⟨k, b.validator, b.serial, veh.number, b.lane, b.object, r.kind, r.generation, c, u, b.segmentsSent,
          b.closeAttempts⟩ :: delivered ++
          (if r.state = .retiring ∧ r.refs ≤ 1 then [.objectRetired b.object r.kind r.generation] else [])) s).host) ∧
    t.vehicles = put s.vehicles b.vehicle { veh with boundSlots := veh.boundSlots - 1 } ∧
    (r.state = .retiring ∧ r.refs ≤ 1 → look t.objects b.object = none ∧ t.pool = s.pool ++ r.blocks) ∧
    (¬(r.state = .retiring ∧ r.refs ≤ 1) → t.objects = put s.objects b.object { r with refs := r.refs - 1 } ∧ t.pool = s.pool) ∧
    (∀ j, j ≠ b.object → look t.objects j = look s.objects j) ∧
    (∀ j, j ≠ b.lane → t.lane j = s.lane j) ∧
    (∀ tr co, (s.lane b.lane).transaction = some tr → tr.owner = .slot k co →
      (t.lane b.lane).transaction = some { tr with owner := .ended }) ∧
    t.dispatchDue = true ∧ SameLink s t ∧
    (t.content = s.content ∧ t.fare = s.fare ∧ t.block = s.block ∧ t.merge = s.merge ∧ t.clock = s.clock ∧ t.scanner = s.scanner ∧
      t.policy = s.policy ∧ t.now = s.now)) ∧
  (∀ (which : Binding → Bool) (c : EndCond) (s : State), SlotsEnded (fun b => which b = true) c s (endSlotsWhere which c s) ∧
    ∀ one : State → SlotIx → State, (∀ t k, (∀ b, (t.slot k).binding = some b → which b = false) → one t k = t) →
      (∀ t k b, (t.slot k).binding = some b → which b = true → one t k = endSlot k c false t) →
      endSlotsWhere which c s = ([0, 1, 2, 3, 4, 5, 6, 7, 8, 9, 10, 11] : List SlotIx).foldl one s) ∧
  (∀ (n : Nat) (c : EndCond) (s : State), endVehicleSlots n c s = endSlotsWhere (fun b => b.vehicle == n) c s ∧
    endValidatorSlot n c s = endSlotsWhere (fun b => b.validator == n) c s) ∧
  (∀ (i : LaneIx) (c : EndCond) (s : State), endLaneSlots i c s = endSlotsWhere (fun b => b.lane == i) c s)

/-- SET_POLICY: a mask beyond the nine fields is refused; else each masked field takes the carried value brought into its range, the reply
carries all nine and says whether one was clamped, and the slots at a retry limit now reached end before it (R86, R92, R108, R154, R162; which
mask bit stands for which value is log entry 37). -/
def Obligations.SetPolicyOutcome : Prop :=
  ∀ (s : State) (tag : Byte) (mask : Nat) (f p : Policy) (fields : List Byte), Held s tag (.setPolicy mask f) →
    (512 ≤ mask → exec .setPolicy s = .next (replied 0x95 tag .badField [] s)) ∧
    (mask < 512 →
      p = { retryLimit := if mask.testBit 0 then clampTo 1 7 f.retryLimit else s.policy.retryLimit,
            pendingLimit := if mask.testBit 1 then clampTo 1 15 f.pendingLimit else s.policy.pendingLimit,
            urgentLag := if mask.testBit 2 then clampTo 1 32 f.urgentLag else s.policy.urgentLag,
            scanPeriod := if mask.testBit 3 then clampTo 1 60 f.scanPeriod else s.policy.scanPeriod,
            silenceLimit := if mask.testBit 4 then clampTo 10 3600 f.silenceLimit else s.policy.silenceLimit,
            wakeMaximum := if mask.testBit 5 then clampTo 1 50 f.wakeMaximum else s.policy.wakeMaximum,
            relayDepth := if mask.testBit 6 then clampTo 1 2 f.relayDepth else s.policy.relayDepth,
            reportThreshold := if mask.testBit 7 then clampTo 0 3 f.reportThreshold else s.policy.reportThreshold,
            depotNumber := if mask.testBit 8 then clampTo 0 65535 f.depotNumber else s.policy.depotNumber } →
      fields = leBytes 1 p.retryLimit ++ leBytes 1 p.pendingLimit ++ leBytes 1 p.urgentLag ++ leBytes 1 p.scanPeriod ++
        leBytes 2 p.silenceLimit ++ leBytes 1 p.wakeMaximum ++ leBytes 1 p.relayDepth ++ leBytes 1 p.reportThreshold ++
        leBytes 2 p.depotNumber →
      ∃ t st, exec .setPolicy s = .next t ∧ t.policy = p ∧ t.host.replyPlace = some ⟨0x95, tag, st, fields⟩ ∧
        t.host.processor = .idle ∧ (st = .ok ∨ st = .clamped) ∧ (st = .ok ↔ policyUnclamped mask f = true) ∧
        (∀ k b, (s.slot k).binding = some b → p.retryLimit ≤ b.errors →
          t.slot k = if b.step = .abandon then ⟨none, .superseded, true⟩ else ⟨none, .retryExhausted, false⟩) ∧
        ((∀ k b, (s.slot k).binding = some b → b.errors < p.retryLimit) → t = chooseAll (replied 0x95 tag st fields { s with
          policy := p, dispatchDue := s.dispatchDue || decide (p.relayDepth ≠ s.policy.relayDepth) })) ∧
        (∃ u : State, t = chooseAll (replied 0x95 tag st fields
          { u with policy := p, dispatchDue := u.dispatchDue || decide (p.relayDepth ≠ s.policy.relayDepth) }) ∧
          ∀ one : State → SlotIx → State,
            (∀ w k, (∀ b, (w.slot k).binding = some b → b.errors < p.retryLimit) → one w k = w) →
            (∀ w k b, (w.slot k).binding = some b → p.retryLimit ≤ b.errors → b.step = .abandon →
              one w k = endSlot k .superseded true w) →
            (∀ w k b, (w.slot k).binding = some b → p.retryLimit ≤ b.errors → b.step ≠ .abandon →
              one w k = endSlot k .retryExhausted false w) →
            u = ([0, 1, 2, 3, 4, 5, 6, 7, 8, 9, 10, 11] : List SlotIx).foldl one s)) ∧
    (policyUnclamped mask f = true ↔ (mask.testBit 0 = true → 1 ≤ f.retryLimit ∧ f.retryLimit ≤ 7) ∧
      (mask.testBit 1 = true → 1 ≤ f.pendingLimit ∧ f.pendingLimit ≤ 15) ∧ (mask.testBit 2 = true → 1 ≤ f.urgentLag ∧ f.urgentLag ≤ 32) ∧
      (mask.testBit 3 = true → 1 ≤ f.scanPeriod ∧ f.scanPeriod ≤ 60) ∧
      (mask.testBit 4 = true → 10 ≤ f.silenceLimit ∧ f.silenceLimit ≤ 3600) ∧
      (mask.testBit 5 = true → 1 ≤ f.wakeMaximum ∧ f.wakeMaximum ≤ 50) ∧ (mask.testBit 6 = true → 1 ≤ f.relayDepth ∧ f.relayDepth ≤ 2) ∧
      (mask.testBit 7 = true → f.reportThreshold ≤ 3) ∧ (mask.testBit 8 = true → f.depotNumber ≤ 65535))

/-! ## Lane rounds (06) -/

/-- A round begins: its inputs are taken, and the beacon carries the depot's state, up to 8 acknowledgements, which leave their list, and
the wake list, whose vehicles' attempts rise, each that reaches the maximum becoming UNREACHABLE with VEHICLE_UNREACHABLE; the build of the
beacon tests idleness, which starts, keeps or stops the quiet-delay timer and keeps or clears the frame-wake mark; LANE_PREAMBLE_END begins
the first round (R45, R112 to R118, R122, R129, R133, R167; that the beacon's end is in whole microseconds, rounded up, is log entry 3, that
LANE_PREAMBLE_END moves internal time on to its deadline log entry 4). -/
def Obligations.RoundBegins : Prop :=
  (∀ (s : State) (i : LaneIx), (s.lane i).state = .starting →
    exec (.lanePreambleEnd i) s = .next (beginRound i { s with now := max s.now (s.lane i).deadline })) ∧
  ∀ (s t : State) (i : LaneIx) (l m : Lane) (names : List Nat), RosterOk s → t = beginRound i s → l = s.lane i → m = t.lane i →
    names = (wakeList s i).map (fun v => vehicleNumber s (some v)) →
    (m.state = .active ∧ m.phase = .beacon ∧ m.roundStart = s.now ∧ m.rate = 921600 / l.params.divisor ∧
      m.inLength = l.params.roundLength ∧ m.inWindow = l.params.announceWindow ∧ m.rollCallMade = false ∧
      m.acks = l.acks.drop 8 ∧ m.wake = names ∧ m.reception = none) ∧
    (m.params = l.params ∧ m.efficiency = l.efficiency ∧ m.useful = l.useful ∧ m.spent = l.spent ∧ m.answers = l.answers ∧
      m.lastServed = l.lastServed ∧ m.transaction = l.transaction ∧ m.doublingDue = l.doublingDue ∧ m.arrival = l.arrival ∧
      m.burst = l.burst ∧ m.fault = l.fault ∧ m.breaks = l.breaks) ∧
    m.sent = some ⟨0x01, i, 0, 0, false,
      leBytes 2 s.policy.depotNumber ++ leBytes 4 s.clock.count ++ leBytes 2 (orZero (publishedFare s)) ++
        leBytes 2 (orZero (publishedBase s)) ++ leBytes 2 (orZero (publishedHead s)) ++ leBytes 1 (min 8 l.acks.length) ++
        (l.acks.take 8).flatMap (leBytes 2) ++ leBytes 1 names.length ++
        names.flatMap (fun n => leBytes 2 n ++ leBytes 2 (65535 - n))⟩ ∧
    m.deadline = s.now + ceilDiv ((25 + 2 * min 8 l.acks.length + 4 * names.length) * 10000000) (921600 / l.params.divisor) ∧
    (∀ v r, look s.vehicles v = some r →
      (v ∈ wakeList s i → look t.vehicles v = some { r with
        wakeAttempts := r.wakeAttempts + 1,
        state := if s.policy.wakeMaximum ≤ r.wakeAttempts + 1 then .unreachable else r.state }) ∧
      (v ∉ wakeList s i → look t.vehicles v = some r)) ∧
    (∀ j, j ≠ i → t.lane j = s.lane j) ∧ t.slots = s.slots ∧ t.objects = s.objects ∧ t.validators = s.validators ∧
    t.now = s.now ∧ t.clock = s.clock ∧ SameLink s t ∧
    t.host = (submitAll ((wakeList s i).flatMap (fun v => match look s.vehicles v with
      | none => []
      | some r => if s.policy.wakeMaximum ≤ r.wakeAttempts + 1
          then [.vehicleUnreachable r.number r.lane r.state (r.wakeAttempts + 1)] else [])) s).host ∧
    (∀ free : Prop, (free ↔ (∀ k b, (s.slot k).binding = some b → b.lane ≠ i) ∧ names = [] ∧ l.arrival = false ∧
        ¬(l.params.presence = .edgeLevel ∧ l.lineAsserted = true) ∧ l.burst = 0) →
      (l.frameWake = true → (free → m.quietTimer = l.quietTimer ∧ m.frameWake = true) ∧
        (¬free → m.quietTimer = .stopped ∧ m.frameWake = false)) ∧
      (l.frameWake = false → m.frameWake = false ∧
        (free ∧ l.answers = [] → m.quietTimer = if l.quietTimer = .stopped
          then (if l.params.quietDelay = 0 then .expired else .running (s.now + l.params.quietDelay * 1000)) else l.quietTimer) ∧
        (¬(free ∧ l.answers = []) → m.quietTimer = .stopped)))

/-- The wake list of a beacon: at most 8 vehicles, first the ASLEEP ones of the lane by their best-ranked live entry, then the EXPECTED
ones by departure time, absent last, and number; a vehicle is left out only when the list is full (R117). -/
def Obligations.WakeListRule : Prop :=
  ∀ (s : State) (i : LaneIx), RosterOk s →
    ∃ asleep expected : List Nat, wakeList s i = (asleep ++ expected).take 8 ∧ (asleep ++ expected).Nodup ∧
      (∀ v, v ∈ asleep ↔ ∃ e ∈ s.scanner.ranked, ∃ x r, liveEntry s e = some (x, v, r) ∧ r.lane = i ∧ r.state = .asleep) ∧
      (∀ v, v ∈ expected ↔ ∃ r, look s.vehicles v = some r ∧ r.lane = i ∧ r.state = .expected) ∧
      asleep.Pairwise (fun v w => ∃ before_ e after_ x r, s.scanner.ranked = before_ ++ e :: after_ ∧
        liveEntry s e = some (x, v, r) ∧ ∀ e' ∈ before_, ∀ x' r', liveEntry s e' ≠ some (x', w, r')) ∧
      expected.Pairwise (fun v w => ∀ a b, look s.vehicles v = some a → look s.vehicles w = some b →
        (∃ d, a.departure = some d ∧ (b.departure = none ∨ ∃ e, b.departure = some e ∧ (d < e ∨ (d = e ∧ a.number ≤ b.number)))) ∨
        (a.departure = none ∧ b.departure = none ∧ a.number ≤ b.number))

/-- The parts of a round: the window opens with its length, doubled when due and at most half the round; it closes into the service phase,
where in EDGE mode the arrival flag that doubled it is cleared; the round's end counts a burst down, lets an idle lane with its timer
EXPIRED fall QUIET, or begins the next round. The bytes of a frame in progress are spent when it ends: those of the service phase, and none
of the window or of QUIET (R112, R114, R119, R128, R130, R131, R134, R136; times in whole microseconds are log entry 3, that an expiry moves
internal time on to its deadline log entry 4, the count of the bytes of a frame in progress log entry 11, what an operand of ROUND_END
carries log entry 22). -/
def Obligations.RoundParts : Prop :=
  (∀ (s : State) (i : LaneIx) (l : Lane), l = s.lane i → l.state = .active →
    (∀ now : Time, now = max s.now l.deadline → l.phase = .beacon → exec (.beaconEnd i) s = .next { s with
      now := now,
      lanes := s.lanes.set i { l with
        phase := .window, windowByArrival := l.arrival, doublingDue := false,
        deadline := now + min ((if l.arrival = true ∨ l.doublingDue = true then 2 else 1) * l.inWindow) (l.inLength / 2) * 1000 } }) ∧
    (∀ (now : Time) (m : Lane), now = max s.now l.deadline → l.phase = .window →
      m = { l with phase := .service, windowByArrival := false,
                   reception := l.reception.map (fun r => { r with windowBytes := heardBytes now l }) } →
      (l.params.presence ≠ .edge ∨ l.windowByArrival = false →
        exec (.windowClose i) s = .next (chooseAll { s with now := now, lanes := s.lanes.set i m })) ∧
      (l.params.presence = .edge → l.windowByArrival = true → exec (.windowClose i) s =
        .next (chooseAll (retestIdle i { s with now := now, lanes := s.lanes.set i { m with arrival := false } })))) ∧
    (∀ (now : Time) (n : Nat), now = max s.now (l.roundStart + l.inLength * 1000) → l.phase = .service → l.transaction = none →
      (l.burst = 0 → l.quietTimer = .expired → laneIdle s i = true → exec (.roundEnd i n) s = .next { s with
        now := now,
        lanes := s.lanes.set i { l with
          state := .quiet, phase := .none, powerSave := true, quietTimer := .stopped, frameWake := false,
          reception := l.reception.map (fun r => { r with owed := n - r.windowBytes }),
          quietMaxEnd := some (now + 1000 * l.params.quietMaximum * 1000) } }) ∧
      (¬(l.burst = 0 ∧ l.quietTimer = .expired ∧ laneIdle s i = true) → exec (.roundEnd i n) s = .next (beginRound i { s with
        now := now,
        lanes := s.lanes.set i { l with
          burst := l.burst - 1, reception := none,
          spent := if l.reception = none then l.spent else spentAfter l n } })))) ∧
  (∀ (l : Lane) (now : Time) (n : Nat),
    (l.reception = none → heardBytes now l = 0 ∧ spentAfter l n = if l.phase = .service then addSat32 l.spent n else l.spent) ∧
    (∀ r, l.reception = some r → heardBytes now l = min 2307 (1 + (now - r.start) * l.rate / 10000000) ∧
      spentAfter l n = addSat32 l.spent (if l.phase = .service then n - r.windowBytes else r.owed)))

/-- A choice point: the answer at the head of the queue, then the roll-call, then the lane's slots in round-robin order, each if its
budget fits the time left in the round; nothing is sent when none is eligible, outside the service phase, or with a transaction in flight.
What is sent is recorded as in flight, a frame a relay has in progress is cut short, and nothing else of the lane changes; the roll-call
goes to the vehicle with the oldest last-heard time; the requests of slots and the bytes of a lane frame (R90, R112, R122 to R128, R166,
R167, R168; times in whole microseconds, rounded up, are log entry 3, the count of the bytes of a frame cut short log entry 11). -/
def Obligations.ChoicePointOrder : Prop :=
  (∀ (s : State) (i : LaneIx) (l cut : Lane) (left : Time) (rate timeout : Nat), l = s.lane i →
    cut = { l with reception := none, spent := if l.reception = none then l.spent else spentAfter l (heardBytes s.now l) } →
    left = l.roundStart + l.inLength * 1000 - s.now → rate = l.rate → timeout = l.params.replyTimeout →
    (l.state ≠ .active ∨ l.phase ≠ .service ∨ l.transaction ≠ none → choose i s = s) ∧
    (l.state = .active → l.phase = .service → l.transaction = none →
      (∀ (a : Answer) (rest : List Answer) (ends : Time), l.answers = a :: rest → ceilDiv 230000 rate * 1000 ≤ left →
        ends = s.now + ceilDiv 230000000 rate →
        choose i s = retestIdle i { s with lanes := s.lanes.set i { cut with
          answers := rest,
          sent := some ⟨0x04, i, a.vehicle, a.position, a.seqBit,
            leBytes 2 s.policy.depotNumber ++ leBytes 4 s.clock.count ++ leBytes 2 (orZero (publishedFare s)) ++
              leBytes 2 (orZero (publishedBase s)) ++ leBytes 2 (orZero (publishedHead s))⟩,
          transaction := some ⟨.answer, .state, a.vehicle, a.position, a.seqBit, 23, s.now, ends, ends,
            s.now + ceilDiv 230000 rate * 1000⟩ } }) ∧
      (l.answers = [] ∨ left < ceilDiv 230000 rate * 1000 →
        (∀ (v : Nat) (r : Vehicle) (ends : Time), l.rollCallMade = false → rollCallCandidate s i = some (v, r) →
          (ceilDiv 220000 rate + timeout) * 1000 ≤ left → ends = s.now + ceilDiv 110000000 rate →
          choose i s = { s with lanes := s.lanes.set i { cut with
            rollCallMade := true, sent := some ⟨0x15, i, r.number, 0, false, []⟩,
            transaction := some ⟨.rollCall, .probe, r.number, 0, false, 11, s.now, ends, ends + timeout * 1000,
              s.now + (ceilDiv 220000 rate + timeout) * 1000⟩ } }) ∧
        (l.rollCallMade = true ∨ rollCallCandidate s i = none ∨ left < (ceilDiv 220000 rate + timeout) * 1000 →
          (∀ (before_ after_ : List SlotIx) (k : SlotIx) (b : Binding) (f : LaneFrame) (n : Nat) (ends : Time),
            (List.range 12).map (fun n => l.lastServed + 1 + Fin.ofNat 12 n) = before_ ++ k :: after_ →
            (∀ j ∈ before_, slotEligible s i j = false) → slotEligible s i k = true → (s.slot k).binding = some b →
            f = requestFrame s b → n = f.body.length + 11 → ends = s.now + ceilDiv (n * 10000000) rate →
            choose i s = { s with
              slots := s.slots.set k { s.slot k with binding := some { b with
                segmentsSent := if f.kind = 0x11 then addSat32 b.segmentsSent 1 else b.segmentsSent } },
              lanes := s.lanes.set i { cut with
                lastServed := k, sent := some f,
                transaction := some ⟨.slot k false, exchangeOf b, f.vehicle, f.position, f.seqBit, n, s.now, ends,
                  ends + timeout * 1000,
                  s.now + (ceilDiv ((n + if b.state = .await then 12 else 11) * 10000) rate + timeout) * 1000⟩ } }) ∧
          ((∀ k, slotEligible s i k = false) → choose i s = s)))) ∧
    (∀ k, slotEligible s i k = true ↔ ∃ b, (s.slot k).binding = some b ∧ b.lane = i ∧
      (b.state ≠ .await ∨ (b.step ≠ .abandon ∧ b.fetchTime ≤ s.now)) ∧
      (ceilDiv (((requestFrame s b).body.length + 11 + (if b.state = .await then 12 else 11)) * 10000) rate + timeout) * 1000 ≤ left)) ∧
  (∀ s : State, chooseAll s = choose 5 (choose 4 (choose 3 (choose 2 (choose 1 (choose 0 s)))))) ∧
  (∀ (s : State) (i : LaneIx), Chosen s (choose i s)) ∧
  (∀ (s : State) (i : LaneIx),
    (s.clock.unset = true → rollCallCandidate s i = none) ∧
    (s.clock.unset = false → RosterOk s → Oldest Vehicle.lastHeard s.vehicles (fun r => r.state = .present ∧ r.lane = i ∧
      r.boundSlots = 0 ∧ s.policy.silenceLimit ≤ (s.clock.count - r.lastHeard) * 2) (rollCallCandidate s i))) ∧
  (∀ (s : State) (b : Binding) (f : LaneFrame), f = requestFrame s b →
    f.lane = b.lane ∧ f.vehicle = ((look s.vehicles b.vehicle).map Vehicle.number).getD 0 ∧
    f.position = ((look s.validators b.validator).map Validator.position).getD 0 ∧ f.seqBit = b.seqBit ∧
    (b.state = .probe → f.kind = 0x15 ∧ f.body = [] ∧ exchangeOf b = .probe) ∧
    (b.state = .await → f.kind = 0x14 ∧ f.body = [] ∧ (b.step = .opening → exchangeOf b = .fetchOpen) ∧
      (∀ n, b.step = .seg n → exchangeOf b = .fetchSegment) ∧ (b.step = .close → exchangeOf b = .fetchClose)) ∧
    (b.state = .send → exchangeOf b = .put ∧
      (∀ o, b.step = .opening → look s.objects b.object = some o → f.kind = 0x10 ∧ f.body =
        leBytes 1 o.kind.stream.code ++ leBytes 1 o.kind.code ++ leBytes 2 o.generation ++ leBytes 4 o.declaredSize ++
          leBytes 4 o.declaredCrc.toNat ++ leBytes 2 b.segmentSize ++ leBytes 2 b.segmentCount ++ leBytes 4 (orZero o.effectiveTime)) ∧
      (∀ o n, b.step = .seg n → look s.objects b.object = some o → f.kind = 0x11 ∧
        f.body = leBytes 2 n ++ objectBytes s.content o (n * b.segmentSize) (min b.segmentSize (o.declaredSize - n * b.segmentSize))) ∧
      (b.step = .close → f.kind = 0x12 ∧ f.body = []) ∧ (b.step = .abandon → f.kind = 0x13 ∧ f.body = []))) ∧
  (∀ (f : LaneFrame) (covered : List Byte),
    covered = leBytes 1 f.kind ++ leBytes 1 f.lane.val ++ leBytes 2 f.vehicle ++ leBytes 1 f.position ++ boolByte f.seqBit ++
      leBytes 2 f.body.length ++ f.body →
    f.bytes = [0x5C] ++ covered ++ leBytes 2 (crc16 covered).toNat)

/-- A transaction ends: the request's bytes and those received are spent, it is in flight no longer, its outcome goes to the slot of
the binding that made it, else to none, and the lane chooses again; STATE_SEND_END, REPLY_TIMEOUT, TRANSACTION_BUDGET_END, and
FETCH_TIME_REACHED, at which the lane chooses again. None of them does anything without what it ends (R94, R106, R122, R123, R125, R126,
R128; that a command without what it ends changes nothing is the model's form of commands, log entry 1, that each moves internal time on to
its deadline log entry 4). -/
def Obligations.TransactionEnds : Prop :=
  (∀ (s : State) (i : LaneIx) (l : Lane) (tr : Transaction) (ended : Time → Nat → State), l = s.lane i → l.transaction = some tr →
    (∀ at_ n, ended at_ n = { s with
      now := max s.now at_,
      lanes := s.lanes.set i { l with
        spent := addSat32 l.spent (tr.requestBytes + n), transaction := none, reception := none } }) →
    (tr.owner = .answer → exec (.stateSendEnd i) s = .next (chooseAll (ended tr.sendEnd 0)) ∧
      exec (.replyTimeout i) s = .next s ∧ ∀ n, exec (.transactionBudgetEnd i n) s = .next s) ∧
    (tr.owner ≠ .answer → exec (.stateSendEnd i) s = .next s ∧
      (l.reception = none →
        exec (.replyTimeout i) s = .next (chooseAll (handOutcome tr.owner .error (ended tr.replyBy 0)))) ∧
      (l.reception ≠ none → exec (.replyTimeout i) s = .next s) ∧
      ∀ n, exec (.transactionBudgetEnd i n) s = .next (chooseAll (handOutcome tr.owner .error (ended tr.budgetEnd n))))) ∧
  (∀ (s : State) (i : LaneIx), (s.lane i).transaction = none →
    exec (.stateSendEnd i) s = .next s ∧ exec (.replyTimeout i) s = .next s ∧ ∀ n, exec (.transactionBudgetEnd i n) s = .next s) ∧
  (∀ (s : State) (x : SlotOutcome), (∀ k countOnly, handOutcome (.slot k countOnly) x s = slotOutcome k countOnly x s) ∧
    ∀ o ∈ [Owner.answer, .rollCall, .ended], handOutcome o x s = s) ∧
  (∀ (s : State) (k : SlotIx),
    (∀ b, (s.slot k).binding = some b → b.state = .await →
      exec (.fetchTimeReached k) s = .next (chooseAll { s with now := max s.now b.fetchTime })) ∧
    ((∀ b, (s.slot k).binding = some b → b.state ≠ .await) → exec (.fetchTimeReached k) s = .next s))

/-- Frames of relays on a lane that hears them, because it listens or because it left QUIET in this very moment: a frame begins; a garbled
one, by its length, by an idle line or by its length field, is spent in the service phase and is an error for a waiting transaction; a good
one clears the fault mark, refreshes its vehicle, is the outcome of a waiting transaction, and acts by its kind: an ANNOUNCE goes to the
roster, an INQUIRE to the answer queue, and on a QUIET lane either begins STARTING with the timer EXPIRED and the frame-wake mark; an
unheard one is lost (R166, R112, R120, R121, R126, R43, R60, R91, R128, R132, R133, R140, R40, R167, R169; the time of the event is log
entry 30, what a lane takes as listening and the moment of leaving QUIET log entry 21, the bytes of a frame that the window's end divides
log entry 22, the refresh by a verdict log entry 27, the rate of the preamble log entry 17, whole microseconds log entry 3, that a frame
which cannot come about changes nothing log entry 1). -/
def Obligations.LaneFrames : Prop :=
  (∀ bs : List Byte, tooLongLaneFrame bs = true ↔ bs.head? = some 0x5C ∧ bs.length = 9 ∧ 2297 < field bs 7 2) ∧
  (∀ (i : LaneIx) (bs : List Byte),
    (goodFrame i bs ≠ none ↔
      bs.head? = some 0x5C ∧ bs.length = field bs 7 2 + 11 ∧ field bs 2 1 = i.val ∧
        field bs (field bs 7 2 + 9) 2 = (crc16 ((bs.drop 1).take (field bs 7 2 + 8))).toNat ∧
        ((field bs 1 1 = 0x02 ∧ 2 ≤ field bs 7 2 ∧ field bs 7 2 = 2 + 9 * field bs 10 1) ∨
          (field bs 1 1 ∈ [0x03, 0x20, 0x21, 0x23, 0x24] ∧ field bs 7 2 = 0) ∨ (field bs 1 1 = 0x22 ∧ field bs 7 2 = 1))) ∧
    (∀ f, goodFrame i bs = some f → f.vehicle = field bs 3 2 ∧ f.position = field bs 5 1 ∧
      f.seqBit = decide (field bs 6 1 % 2 = 1) ∧
      relayMessage (field bs 1 1) ((bs.drop 9).take (field bs 7 2)) = some f.message)) ∧
  (relayMessage 0x03 [] = some .inquire ∧ relayMessage 0x20 [] = some .taken ∧ relayMessage 0x21 [] = some .full ∧
    relayMessage 0x23 [] = some .ready ∧ relayMessage 0x24 [] = some .busy ∧
    (∀ c : Byte, relayMessage 0x22 [c] = some (.verdict c.toNat)) ∧
    ∀ (b : List Byte) (n : Nat), n = field b 1 1 → b.length = 2 + 9 * n →
      relayMessage 0x02 b = some (.announce (decide (field b 0 1 ≠ 0)) ((List.range n).map (fun k =>
        ⟨field b (2 + 9 * k) 4, field b (2 + 9 * k + 4) 1, absentZero (field b (2 + 9 * k + 5) 2),
          absentZero (field b (2 + 9 * k + 7) 2)⟩)))) ∧
  (∀ (now : Time) (l : Lane), listening now l = true ↔ l.state = .quiet ∨
    (l.state = .active ∧ (l.phase = .window ∨ l.phase = .service) ∧
      ∀ tr, l.transaction = some tr → tr.owner ≠ .answer ∧ tr.sendEnd ≤ now)) ∧
  (∀ (s : State) (i : LaneIx) (l : Lane) (now at_ : Time) (hears : Bool) (loose ended : Bool → Nat → State), l = s.lane i →
    now = max s.now at_ → (hears = true ↔ listening now l = true ∨ (l.state = .starting ∧ l.leftQuiet = some now)) →
    (∀ ok n, loose ok n = { s with
      now := now,
      lanes := s.lanes.set i { l with
        spent := spentAfter l n, reception := none, fault := if ok = true then false else l.fault } }) →
    (∀ ok n, ended ok n = { s with
      now := now,
      lanes := s.lanes.set i { l with
        spent := addSat32 l.spent (((l.transaction.map Transaction.requestBytes).getD 0) + n), reception := none,
        transaction := none, fault := if ok = true then false else l.fault } }) →
    (listening now l = true → l.reception = none → exec (.laneFrameStart i at_) s = .next { s with
      now := now, lanes := s.lanes.set i { l with reception := some ⟨now, 0, 0⟩ } }) ∧
    (listening now l = false ∨ l.reception ≠ none → exec (.laneFrameStart i at_) s = .next s) ∧
    (∀ (c : Instr) (n : Nat), hears = true →
      (∃ bs, c = .laneFrameReceived i bs at_ ∧ goodFrame i bs = none ∧ n = bs.length) ∨ c = .laneFrameIdleEnd i n at_ ∨
        (∃ bs, c = .laneFrameTooLong i bs at_ ∧ tooLongLaneFrame bs = true ∧ n = bs.length) →
      (l.transaction = none → exec c s = .next (chooseAll (loose false n))) ∧
      (∀ tr, l.transaction = some tr → exec c s = .next (chooseAll (handOutcome tr.owner .error (ended false n))))) ∧
    (∀ (bs : List Byte) (f : RelayFrame), hears = true → goodFrame i bs = some f →
      (l.transaction = none → exec (.laneFrameReceived i bs at_) s =
        .next (chooseAll (relayAct i f (frameRefresh f (loose true bs.length))))) ∧
      (∀ tr x, l.transaction = some tr →
        x = (if f.vehicle = tr.vehicle ∧ f.position = tr.position ∧ f.seqBit = tr.seqBit
          then replyOutcome tr.exchange f.message else .error) →
        exec (.laneFrameReceived i bs at_) s = .next (chooseAll (relayAct i f (handOutcome tr.owner x
          (verdictRefresh tr.owner x (frameRefresh f (ended true bs.length)))))))) ∧
    (∀ (bs : List Byte) (n : Nat),
      (hears = false → exec (.laneFrameReceived i bs at_) s = .next s ∧ exec (.laneFrameIdleEnd i n at_) s = .next s) ∧
      (hears = false ∨ tooLongLaneFrame bs = false → exec (.laneFrameTooLong i bs at_) s = .next s))) ∧
  (replyOutcome .put .taken = .taken ∧ replyOutcome .put .full = .full ∧ replyOutcome .probe .ready = .ready ∧
    replyOutcome .probe .busy = .busy ∧
    (∀ c : Nat,
      replyOutcome .fetchOpen (.verdict c) = (if c ∈ [1, 3, 4, 7] then .verdict c else .error) ∧
      replyOutcome .fetchSegment (.verdict c) = (if c ∈ [1, 2, 3, 4, 7] then .verdict c else .error) ∧
      replyOutcome .fetchClose (.verdict c) = (if c ∈ [3, 5, 6, 7] then .verdict c else .error)) ∧
    ∀ m : RelayMessage, (m ≠ .taken → m ≠ .full → replyOutcome .put m = .error) ∧
      (m ≠ .ready → m ≠ .busy → replyOutcome .probe m = .error) ∧
      ((∀ c, m ≠ .verdict c) → ∀ x ∈ [Exchange.fetchOpen, .fetchSegment, .fetchClose], replyOutcome x m = .error)) ∧
  (∀ (s : State) (o : Owner) (x : SlotOutcome),
    ((∀ k countOnly, o ≠ .slot k countOnly) ∨ (∀ c, x ≠ .verdict c) → verdictRefresh o x s = s) ∧
    (∀ k countOnly c b v, o = .slot k countOnly → x = .verdict c → (s.slot k).binding = some b → look s.validators b.validator = some v →
      verdictRefresh o x s = { s with validators := put s.validators b.validator { v with lastHeard := s.clock.count } }) ∧
    (∀ k countOnly, o = .slot k countOnly → (s.slot k).binding = none → verdictRefresh o x s = s)) ∧
  (∀ (i : LaneIx) (f : RelayFrame) (u : State),
    f.message = .taken ∨ f.message = .full ∨ (∃ c, f.message = .verdict c) ∨ f.message = .ready ∨ f.message = .busy →
      relayAct i f u = u ∧ frameRefresh f u = refresh f.vehicle u) ∧
  ∀ (i : LaneIx) (f : RelayFrame) (u act : State) (woken : State → State),
    (∀ w, woken w = { w with lanes := w.lanes.set i { w.lane i with
      state := .starting, phase := .none, powerSave := false, quietMaxEnd := none, leftQuiet := none, quietTimer := .expired,
      frameWake := true, reception := none, spent := spentAfter (w.lane i) 0,
      deadline := w.now + ceilDiv ((w.lane i).params.preamble * 10000000) (w.lane i).rate } }) →
    (∀ sleep items, f.message = .announce sleep items → act = announce i f.vehicle sleep items u →
      frameRefresh f u = u ∧ ((u.lane i).state ≠ .quiet → relayAct i f u = act) ∧
      ((u.lane i).state = .quiet → relayAct i f u = woken act)) ∧
    (f.message = .inquire →
      (f.vehicle = 0 ∨ 65535 ≤ f.vehicle ∨ 4 < f.position ∨ 4 ≤ (u.lane i).answers.length ∨
        (∃ a ∈ (u.lane i).answers, a.vehicle = f.vehicle ∧ a.position = f.position) → act = u) →
      (1 ≤ f.vehicle → f.vehicle < 65535 → f.position ≤ 4 → (u.lane i).answers.length < 4 →
        (∀ a ∈ (u.lane i).answers, ¬(a.vehicle = f.vehicle ∧ a.position = f.position)) →
        act = retestIdle i { u with lanes := u.lanes.set i { u.lane i with
          answers := (u.lane i).answers ++ [⟨f.vehicle, f.position, f.seqBit⟩] } }) →
      frameRefresh f u = refresh f.vehicle u ∧ ((u.lane i).state ≠ .quiet → relayAct i f u = act) ∧
      ((u.lane i).state = .quiet → relayAct i f u = woken act))

/-- A good frame that is no announce refreshes its vehicle and takes an EXPECTED, ASLEEP or UNREACHABLE one to PRESENT with
VEHICLE_ARRIVED; a malformed announce changes nothing; an announce of known validators by a known vehicle puts the vehicle on the lane,
PRESENT or ASLEEP, lists its validators in order of position with their held generations, detaches those it leaves out, and is acknowledged.
Then an announce in its parts: the vehicle's record, known, new in an unused or an evicted entry, or none with ROSTER_FULL once; the slot
ends ASLEEP and MOVED; each item in turn, its entry known, moved, new, evicted or dropped with ROSTER_FULL once, and its held generations
written; the validators left out, whose slots end in ascending slot number; the acknowledgement, VEHICLE_ARRIVED and the doubling of the
next window (R40, R43, R47 to R54, R105, R116, R119; the moment of the doubling is log entry 19, the lane of a refresh's VEHICLE_ARRIVED
log entry 38). -/
def Obligations.RefreshAndAnnounce : Prop :=
  (∀ (s : State) (number v : Nat) (r : Vehicle), vehicleAt s number = some v → look s.vehicles v = some r →
    (r.state = .present ∨ r.state = .departed →
      refresh number s = { s with vehicles := put s.vehicles v { r with lastHeard := s.clock.count } }) ∧
    (r.state = .expected ∨ r.state = .asleep ∨ r.state = .unreachable →
      refresh number s = submit (.vehicleArrived r.number r.lane r.validators.length) { s with
        vehicles := put s.vehicles v { r with lastHeard := s.clock.count, state := .present, wakeAttempts := 0 },
        dispatchDue := true })) ∧
  (∀ (s : State) (number : Nat), vehicleAt s number = none → refresh number s = s) ∧
  (∀ (s : State) (i : LaneIx) (number : Nat) (sleep : Bool) (items : List AnnounceItem),
    ¬(1 ≤ number ∧ number < 65535 ∧ 1 ≤ items.length ∧ items.length ≤ 4 ∧
      (∀ t ∈ items, t.serial ≠ 0 ∧ 1 ≤ t.position ∧ t.position ≤ 4) ∧ (items.map AnnounceItem.serial).Nodup ∧
      (items.map AnnounceItem.position).Nodup) → announce i number sleep items s = s) ∧
  (∀ (s t : State) (i : LaneIx) (number v : Nat) (sleep : Bool) (items : List AnnounceItem) (r : Vehicle),
    1 ≤ number → number < 65535 → 1 ≤ items.length → items.length ≤ 4 →
    (∀ x ∈ items, x.serial ≠ 0 ∧ 1 ≤ x.position ∧ x.position ≤ 4) → (items.map AnnounceItem.serial).Nodup →
    (items.map AnnounceItem.position).Nodup → (∀ x ∈ items, validatorAt s x.serial ≠ none) → RosterOk s →
    vehicleAt s number = some v → look s.vehicles v = some r → t = announce i number sleep items s →
    (∃ q, look t.vehicles v = some q ∧ q.number = r.number ∧ q.lane = i ∧ q.departure = r.departure ∧ q.lastHeard = s.clock.count ∧
      q.wakeAttempts = 0 ∧ q.state = (if sleep = true then .asleep else .present) ∧ q.validators.length = items.length ∧
      (∀ j, j ∈ q.validators ↔ ∃ x ∈ items, validatorAt s x.serial = some j) ∧
      q.validators.Pairwise (fun j k => ∀ x y, look t.validators j = some x → look t.validators k = some y →
        x.position < y.position)) ∧
    (∀ x ∈ items, ∀ j, validatorAt s x.serial = some j → ∃ y, look t.validators j = some y ∧ y.serial = x.serial ∧
      y.vehicle = some v ∧ y.position = x.position ∧ y.heldFare = x.fare ∧ y.heldBlock = x.block ∧ y.lastHeard = s.clock.count) ∧
    (∀ j ∈ r.validators, ∀ y, (∀ x ∈ items, validatorAt s x.serial ≠ some j) → look t.validators j = some y →
      y.vehicle = none) ∧
    (number ∉ (s.lane i).acks → (s.lane i).acks.length < 32 → (t.lane i).acks = (s.lane i).acks ++ [number]) ∧
    (number ∈ (s.lane i).acks ∨ 32 ≤ (s.lane i).acks.length → (t.lane i).acks = (s.lane i).acks) ∧
    t.dispatchDue = true) ∧
  (∀ (number : Nat) (items : List AnnounceItem), announceOk number items = true ↔
    1 ≤ number ∧ number < 65535 ∧ 1 ≤ items.length ∧ items.length ≤ 4 ∧
      (∀ t ∈ items, t.serial ≠ 0 ∧ 1 ≤ t.position ∧ t.position ≤ 4) ∧ (items.map AnnounceItem.serial).Nodup ∧
      (items.map AnnounceItem.position).Nodup) ∧
  (∀ (s : State) (i : LaneIx) (number : Nat) (sleep : Bool) (items : List AnnounceItem), announceOk number items = true →
    (announceRecord i number s = none → announce i number sleep items s =
      if s.vehicleFull = true then s else submit (.rosterFull .vehicle number 0) { s with vehicleFull := true }) ∧
    (∀ (v : Nat) (before_ : Option VehicleState) (u w d : State) (r q : Vehicle) (handled : State × List (Nat × Nat))
      (listed : List Nat), announceRecord i number s = some (v, before_, u) → w = announceVehicle i sleep v before_ u →
      look w.vehicles v = some r → handled = items.foldl (announceOne v number) (w, []) → listed = listedInOrder handled.2 →
      d = detachAll (r.validators.filter (fun j => decide (j ∉ listed))) handled.1 → look d.vehicles v = some q →
      announce i number sleep items s =
        { announceEnd i number (decide (before_ ≠ some .present ∧ sleep = false)) listed.length
            { d with vehicles := put d.vehicles v { q with validators := listed } } with dispatchDue := true })) ∧
  (∀ (s : State) (i : LaneIx) (number : Nat) (fresh : Vehicle), fresh = ⟨number, i, .present, none, [], s.clock.count, 0, 0⟩ →
    (∀ v r, vehicleAt s number = some v → look s.vehicles v = some r → announceRecord i number s = some (v, some r.state, s)) ∧
    (∀ v, vehicleAt s number = none → lowestUnused 0 s.vehicles = v → v < 256 →
      announceRecord i number s = some (v, none, { s with vehicles := put s.vehicles v fresh })) ∧
    (∀ v r, vehicleAt s number = none → 256 ≤ lowestUnused 0 s.vehicles → vehicleToEvict s = some (v, r) →
      announceRecord i number s = some (v, none,
        { r.validators.foldl (fun t j => modValidator j (fun x => { x with vehicle := none }) t) s with
          vehicles := put (erase s.vehicles v) v fresh, vehicleFull := false })) ∧
    (vehicleAt s number = none → 256 ≤ lowestUnused 0 s.vehicles → vehicleToEvict s = none → announceRecord i number s = none)) ∧
  (∀ (s u w : State) (i : LaneIx) (sleep : Bool) (v : Nat) (before_ : Option VehicleState) (r : Vehicle), look s.vehicles v = some r →
    u = { s with vehicles := put s.vehicles v { r with
      lastHeard := s.clock.count, wakeAttempts := 0, state := if sleep = true then .asleep else .present } } →
    w = (if sleep = true ∧ before_ = some .present then endVehicleSlots v .asleep u else u) →
    (r.lane = i → announceVehicle i sleep v before_ s = w) ∧
    (r.lane ≠ i → announceVehicle i sleep v before_ s =
      endVehicleSlots v .moved (modVehicle v (fun q => { q with lane := i }) w))) ∧
  (∀ (s : State) (v number : Nat) (taken : List (Nat × Nat)) (t : AnnounceItem) (fresh : Validator)
    (placed : Nat → State → State × List (Nat × Nat)),
    fresh = ⟨t.serial, none, t.position, none, none, [], 0, .full, 1, none, .none, ⟨false, false, false, false, false⟩, none,
      s.clock.count⟩ →
    (∀ j u m, m = modValidator j (fun x => { x with vehicle := some v, position := t.position, lastHeard := s.clock.count })
        (moveFrom v j u) → u.clock = s.clock →
      placed j u = (submitAll (writeHeld j t.fare t.block m).2 (writeHeld j t.fare t.block m).1, taken ++ [(t.position, j)])) →
    (∀ j, validatorAt s t.serial = some j → announceOne v number (s, taken) t = placed j s) ∧
    (∀ j, validatorAt s t.serial = none → lowestUnused 0 s.validators = j → j < 1024 →
      announceOne v number (s, taken) t = placed j { s with validators := put s.validators j fresh }) ∧
    (∀ j x, validatorAt s t.serial = none → 1024 ≤ lowestUnused 0 s.validators → validatorToEvict s = some (j, x) →
      announceOne v number (s, taken) t = placed j { (match x.vehicle with
          | none => s
          | some n => modVehicle n (fun q => { q with validators := q.validators.filter (fun y => decide (y ≠ j)) }) s) with
        validators := put (erase s.validators j) j fresh, validatorFull := false }) ∧
    (validatorAt s t.serial = none → 1024 ≤ lowestUnused 0 s.validators → validatorToEvict s = none →
      announceOne v number (s, taken) t =
        (if s.validatorFull = true then s
          else submit (.rosterFull .validator number t.serial) { s with validatorFull := true }, taken))) ∧
  (∀ (s : State) (v j : Nat) (x : Validator), look s.validators j = some x →
    (x.vehicle = none ∨ x.vehicle = some v → moveFrom v j s = s) ∧
    (∀ n, x.vehicle = some n → n ≠ v → moveFrom v j s = endValidatorSlot j .moved
      (modVehicle n (fun q => { q with validators := q.validators.filter (fun y => decide (y ≠ j)) }) s))) ∧
  (∀ s : State, RosterOk s →
    ((∃ j x, look s.validators j = some x ∧ x.vehicle = none ∧ x.boundSlot = none) →
      Oldest Validator.lastHeard s.validators (fun x => x.vehicle = none ∧ x.boundSlot = none) (validatorToEvict s)) ∧
    ((∀ j x, look s.validators j = some x → x.vehicle ≠ none ∨ x.boundSlot ≠ none) →
      Oldest Validator.lastHeard s.validators (fun x => x.boundSlot = none ∧
        ∃ n q, x.vehicle = some n ∧ look s.vehicles n = some q ∧ q.state = .departed) (validatorToEvict s))) ∧
  (∀ taken : List (Nat × Nat), ∃ sorted : List (Nat × Nat), sorted.Perm taken ∧ sorted.Pairwise (fun p q => p.1 ≤ q.1) ∧
    listedInOrder taken = sorted.map Prod.snd) ∧
  (∀ (ids : List Nat) (s : State), detachAll ids s = endSlotsWhere (fun b => ids.contains b.validator) .moved
    (ids.foldl (fun t j => modValidator j (fun x => { x with vehicle := none }) t) s)) ∧
  (∀ (s p : State) (i : LaneIx) (number n : Nat),
    p = (if number ∉ (s.lane i).acks ∧ (s.lane i).acks.length < 32
      then { s with lanes := s.lanes.set i { s.lane i with acks := (s.lane i).acks ++ [number] } } else s) →
    announceEnd i number false n s = p ∧
    announceEnd i number true n s = submit (.vehicleArrived number i n) { p with lanes := p.lanes.set i { p.lane i with
      doublingDue := (p.lane i).doublingDue || decide ((p.lane i).state = .active) } })

/-! ## Quiet, presence, reset and gating of lanes (07) -/

/-- The quiet delay and the quiet maximum expire, and the presence line is taken as asserted or deasserted: the timer becomes EXPIRED, a
QUIET lane leaves QUIET with a burst, any other lane that minds its line keeps the arrival flag, and in EDGE_LEVEL mode the flag goes with
the line. When a lane is idle, and what each test of its idleness does with the timer and the frame-wake mark (R113, R128, R129, R131 to
R134, R136, R137; the moment of leaving QUIET that a lane keeps is log entry 21, the bytes of a frame in progress that are spent then log
entry 22, the rate of the preamble log entry 17, whole microseconds log entry 3, that an expiry moves internal time on to its deadline log
entry 4, that one which cannot come about changes nothing log entry 1). -/
def Obligations.QuietAndPresence : Prop :=
  (∀ (s : State) (i : LaneIx) (l : Lane) (become : Time → Lane → State) (burst : Time → Lane), l = s.lane i →
    (∀ at_ m, become at_ m = { s with now := max s.now at_, lanes := s.lanes.set i m }) →
    (∀ at_, burst at_ = { l with
      state := .starting, phase := .none, reception := none, spent := spentAfter l 0, powerSave := false, quietMaxEnd := none,
      leftQuiet := some (max s.now at_), quietTimer := .stopped, frameWake := false, burst := l.params.burstRounds,
      arrival := l.arrival && decide (l.params.presence ≠ .edge),
      deadline := max s.now at_ + ceilDiv (l.params.preamble * 10000000) l.rate }) →
    (∀ at_, l.quietTimer = .running at_ → exec (.quietDelayExpiry i) s = .next (become at_ { l with quietTimer := .expired })) ∧
    (∀ at_, l.state = .quiet → l.quietMaxEnd = some at_ → exec (.quietMaximumExpiry i) s = .next (become at_ (burst at_))) ∧
    (l.lineAsserted = true → exec (.presenceAssert i) s = .next s) ∧
    (l.lineAsserted = false →
      (l.state = .off ∨ l.params.presence = .none ∨ l.arrival = true → exec (.presenceAssert i) s =
        .next { s with lanes := s.lanes.set i { l with lineAsserted := true } }) ∧
      (l.state ≠ .off → l.params.presence ≠ .none → l.arrival = false →
        (l.state = .quiet → exec (.presenceAssert i) s = .next { s with lanes := s.lanes.set i { burst s.now with
          lineAsserted := true, arrival := decide (l.params.presence = .edgeLevel) } }) ∧
        (l.state ≠ .quiet → exec (.presenceAssert i) s = .next { s with lanes := s.lanes.set i { l with
          lineAsserted := true, arrival := true, quietTimer := .stopped, frameWake := false } }))) ∧
    (l.lineAsserted = false → exec (.presenceDeassert i) s = .next s) ∧
    (l.lineAsserted = true →
      (l.state = .off ∨ l.params.presence ≠ .edgeLevel → exec (.presenceDeassert i) s =
        .next { s with lanes := s.lanes.set i { l with lineAsserted := false } }) ∧
      (l.state ≠ .off → l.params.presence = .edgeLevel → exec (.presenceDeassert i) s =
        .next (retestIdle i { s with lanes := s.lanes.set i { l with
          lineAsserted := false, arrival := false, windowByArrival := false } })))) ∧
  (∀ (s : State) (i : LaneIx) (l : Lane) (free : Prop), l = s.lane i →
    (free ↔ (∀ k b, (s.slot k).binding = some b → b.lane ≠ i) ∧ l.wake = [] ∧ l.arrival = false ∧
      ¬(l.params.presence = .edgeLevel ∧ l.lineAsserted = true) ∧ l.burst = 0) →
    (laneIdle s i = true ↔ l.state = .active ∧ l.answers = [] ∧ free) ∧
    (l.frameWake = false → laneIdle s i = true →
      (l.quietTimer = .stopped → retestIdle i s = { s with lanes := s.lanes.set i { l with
        quietTimer := if l.params.quietDelay = 0 then .expired else .running (s.now + l.params.quietDelay * 1000) } }) ∧
      (l.quietTimer ≠ .stopped → retestIdle i s = s)) ∧
    (l.frameWake = false → laneIdle s i = false → retestIdle i s = { s with lanes := s.lanes.set i { l with quietTimer := .stopped } }) ∧
    (l.frameWake = true →
      ((l.state = .active ∨ l.state = .starting) ∧ free → retestIdle i s = s) ∧
      (¬((l.state = .active ∨ l.state = .starting) ∧ free) → retestIdle i s =
        { s with lanes := s.lanes.set i { l with quietTimer := .stopped, frameWake := false } })))

/-- RESET_LANE and a received break take a lane through RESETTING to STARTING: what is in progress and every slot end, the bytes that an
abandoned request has sent by then being spent, each slot with its reports and its reference as SlotEndOutcome has it, the break count and
the fault mark follow a received break, RESET_LANE clears the mark, and the end of the break makes a dispatch walk due (R86, R126, R138,
R139, R140; the slots end before LANE_FAULT, R105; the count of the whole bytes sent of a request and of those received of a frame in
progress is log entry 11, a break heard in STARTING log entry 21, the rate of break and preamble log entry 17, whole microseconds log entry
3, the time of a break log entry 30, that LANE_BREAK_END moves internal time on to its deadline log entry 4, that a break which cannot be
heard changes nothing log entry 1). -/
def Obligations.BreaksAndReset : Prop :=
  (∀ (rate : Nat) (now : Time) (tr : Transaction),
    sentSoFar rate now tr = min tr.requestBytes ((now - tr.sentAt) * rate / 10000000)) ∧
  (∀ (s : State) (tag : Byte) (lane : Nat), Held s tag (.resetLane lane) →
    (6 ≤ lane → exec .resetLane s = .next (replied 0x93 tag .badField [] s)) ∧
    (∀ i : LaneIx, lane = i.val →
      ((s.lane i).state = .off → exec .resetLane s = .next (replied 0x93 tag .laneOff [] s)) ∧
      ((s.lane i).state = .resetting → exec .resetLane s = .next (replied 0x93 tag .ok (leBytes 1 0)
        { s with lanes := s.lanes.set i { s.lane i with fault := false } })) ∧
      ((s.lane i).state ≠ .off → (s.lane i).state ≠ .resetting →
        ∃ u, EnteredResetting (heardBytes s.now (s.lane i)) s u i ∧
          exec .resetLane s = .next (chooseAll (replied 0x93 tag .ok (leBytes 1 (boundOn s i))
            { u with lanes := u.lanes.set i { u.lane i with fault := false } }))))) ∧
  (∀ (s v : State) (i : LaneIx) (l : Lane) (n breaks : Nat) (at_ now : Time), l = s.lane i → now = max s.now at_ →
    listening now l = true ∨ (l.state = .starting ∧ l.deadline ≤ now) →
    breaks = min (l.breaks + 1) 65535 → l.breaks ≤ 65535 →
    v = { s with now := now, lanes := s.lanes.set i { l with breaks := breaks, fault := true } } →
    ∃ u, EnteredResetting n v u i ∧ exec (.laneBreakReceived i n at_) s =
      .next (chooseAll (if l.fault = true then u else submit (.laneFault i l.state breaks) u))) ∧
  (∀ (s : State) (i : LaneIx) (l : Lane) (n : Nat) (at_ now : Time), l = s.lane i → now = max s.now at_ →
    listening now l = false → l.state ≠ .starting ∨ now < l.deadline → exec (.laneBreakReceived i n at_) s = .next s) ∧
  (∀ (s : State) (i : LaneIx) (l : Lane) (now : Time), l = s.lane i → l.state = .resetting → now = max s.now l.deadline →
    exec (.laneBreakEnd i) s = .next { s with
      now := now, dispatchDue := true,
      lanes := s.lanes.set i { l with
        state := .starting, phase := .none, reception := none,
        deadline := now + ceilDiv (l.params.preamble * 10000000) l.rate } })

/-- SET_LANE: the refusals; a lane switched on takes the defaults and the masked fields and enters STARTING; a lane switched OFF drops its
transaction, ends its slots with LANE_OFF as SlotEndOutcome has it, then each of its vehicles departs in ascending index as DepartureEffects
has it, and its record returns to defaults; a switched-on lane takes the masked fields and the arrival flag of its mode; SWITCH_LANE_ON and
SWITCH_LANE_OFF are the same requests (R160, R141, R142, R46, R67, R69, R111, R132, R134, R136, R137, R154, R128; which mask bit stands for
which parameter is the model's choice, log entry 36; which of the rows a request comes as is log entry 26, the values an OFF lane's unheld
fields have log entry 28, the moment of leaving QUIET that a woken lane keeps log entry 21, the bytes of a frame in progress that are spent
then log entry 22, the rate of the preamble log entry 17, whole microseconds log entry 3). -/
def Obligations.LaneGating : Prop :=
  (∀ (mask : Nat) (f : RawLaneFields) (q : LaneParams), writtenParams mask f q = {
    divisor := if mask.testBit 0 then clampTo 2 960 f.divisor else q.divisor
    roundLength := if mask.testBit 1 then clampTo 50 1000 f.roundLength else q.roundLength
    announceWindow := if mask.testBit 2 then clampTo 0 100 f.announceWindow else q.announceWindow
    preamble := if mask.testBit 3 then clampTo 1 64 f.preamble else q.preamble
    replyTimeout := if mask.testBit 4 then clampTo 5 1000 f.replyTimeout else q.replyTimeout
    turnaround := if mask.testBit 5 then clampTo 0 500 f.turnaround else q.turnaround
    slotsPerLane := if mask.testBit 6 then clampTo 1 12 f.slotsPerLane else q.slotsPerLane
    segmentSize := if mask.testBit 7 then clampTo 64 448 f.segmentSize / 16 * 16 else q.segmentSize
    guardMargin := if mask.testBit 8 then clampTo 0 3600 f.guardMargin else q.guardMargin
    atRiskLimit := if mask.testBit 9 then clampTo 0 3600 f.atRiskLimit else q.atRiskLimit
    crossing := if mask.testBit 10 then crossingOfCode f.crossing else q.crossing
    initialEfficiency := if mask.testBit 11 then clampTo 100 1000 f.initialEfficiency else q.initialEfficiency
    quietDelay := if mask.testBit 12 then clampTo 0 60000 f.quietDelay else q.quietDelay
    quietMaximum := if mask.testBit 13 then clampTo 1 600 f.quietMaximum else q.quietMaximum
    burstRounds := if mask.testBit 14 then clampTo 1 20 f.burstRounds else q.burstRounds
    presence := if mask.testBit 15 then presenceOfCode f.presence else q.presence }) ∧
  (∀ (mask : Nat) (f : RawLaneFields) (taken : Nat → Nat → Nat → Nat → Prop),
    (∀ bit lo hi n, taken bit lo hi n ↔ (mask.testBit bit = true → lo ≤ n ∧ n ≤ hi)) →
    (noneClamped mask f = true ↔ taken 0 2 960 f.divisor ∧ taken 1 50 1000 f.roundLength ∧ taken 2 0 100 f.announceWindow ∧
      taken 3 1 64 f.preamble ∧ taken 4 5 1000 f.replyTimeout ∧ taken 5 0 500 f.turnaround ∧ taken 6 1 12 f.slotsPerLane ∧
      taken 7 64 448 f.segmentSize ∧ (mask.testBit 7 = true → f.segmentSize % 16 = 0) ∧ taken 8 0 3600 f.guardMargin ∧
      taken 9 0 3600 f.atRiskLimit ∧ taken 11 100 1000 f.initialEfficiency ∧ taken 12 0 60000 f.quietDelay ∧
      taken 13 1 600 f.quietMaximum ∧ taken 14 1 20 f.burstRounds)) ∧
  ∀ (s : State) (tag : Byte) (lane enable mask : Nat) (f : RawLaneFields), Held s tag (.setLane lane enable mask f) →
    (6 ≤ lane ∨ 2 ≤ enable ∨ (mask.testBit 10 = true ∧ 4 ≤ f.crossing) ∨ (mask.testBit 15 = true ∧ 3 ≤ f.presence) →
      ∀ c ∈ [Instr.setLane, .switchLaneOn, .switchLaneOff], exec c s = .next (replied 0x91 tag .badField [] s)) ∧
    (∀ (i : LaneIx) (l : Lane) (st : Status), lane = i.val → l = s.lane i →
      (mask.testBit 10 = true → f.crossing < 4) → (mask.testBit 15 = true → f.presence < 3) →
      (st = if noneClamped mask f = true then .ok else .clamped) →
      (enable = 0 → l.state = .off → ∀ c ∈ [Instr.setLane, .switchLaneOff], exec c s = .next (replied 0x91 tag .laneOff [] s)) ∧
      (∀ ended gone u : State, enable = 0 → l.state ≠ .off →
        ended = endLaneSlots i .laneOff { s with lanes := s.lanes.set i { l with transaction := none } } →
        gone = (ended.vehicles.map Prod.fst).foldl (fun w v => match look w.vehicles v with
          | none => w
          | some r => if r.lane = i ∧ r.state ≠ .departed then depart v .laneOff w else w) ended →
        u = { gone with lanes := gone.lanes.set i (Lane.off l.lineAsserted) } →
        (∀ c ∈ [Instr.setLane, .switchLaneOff], exec c s = .next (chooseAll (replied 0x91 tag .ok (leBytes 1 0 ++
          paramBytes ⟨24, 200, 20, 8, 40, 30, 4, 256, 60, 120, .falling, 800, 5000, 30, 5, .none⟩) u))) ∧
        u.lane i = Lane.off l.lineAsserted ∧ (∀ j, j ≠ i → LaneChosen (s.lane j) (u.lane j)) ∧
        (∀ k b, (s.slot k).binding = some b → b.lane = i → u.slot k = ⟨none, .laneOff, false⟩) ∧
        (∀ v r, look s.vehicles v = some r → r.lane = i → ∃ q, look u.vehicles v = some q ∧ q.state = .departed ∧
          q.number = r.number ∧ q.lane = i ∧ q.validators = r.validators) ∧
        (∀ v r, look s.vehicles v = some r → r.lane ≠ i → ∃ n, look u.vehicles v = some { r with boundSlots := n }) ∧
        Inside s { u with lanes := s.lanes }) ∧
      (∀ p, enable = 1 → l.state = .off → p = writtenParams mask f LaneParams.defaults →
        ∀ c ∈ [Instr.setLane, .switchLaneOn], exec c s =
          .next (chooseAll (replied 0x91 tag st (leBytes 1 1 ++ paramBytes p) { s with
            dispatchDue := true,
            scanner := { s.scanner with run := s.scanner.run.map (fun r => { r with inputs := r.inputs.set i none }) },
            lanes := s.lanes.set i { Lane.off l.lineAsserted with
              state := .starting, params := p, efficiency := p.initialEfficiency, rate := 921600 / p.divisor,
              inLength := p.roundLength, inWindow := p.announceWindow,
              arrival := decide (p.presence = .edgeLevel) && l.lineAsserted,
              deadline := s.now + ceilDiv (p.preamble * 10000000) (921600 / p.divisor) } }))) ∧
      (∀ (p : LaneParams) (w cleared : State) (answered : LaneState → State → State), enable = 1 → l.state ≠ .off →
        p = writtenParams mask f l.params →
        w = { s with
          dispatchDue := s.dispatchDue || decide (p.slotsPerLane ≠ l.params.slotsPerLane),
          lanes := s.lanes.set i { l with params := p } } →
        cleared = retestIdle i { w with lanes := s.lanes.set i { l with params := p, arrival := false, windowByArrival := false } } →
        (∀ shown t, answered shown t = chooseAll (replied 0x91 tag st (leBytes 1 shown.code ++ paramBytes p) t)) →
        (p.presence = l.params.presence → exec .setLane s = .next (answered l.state w)) ∧
        (p.presence ≠ l.params.presence →
          (p.presence = .none → exec .setLane s = .next (answered l.state cleared)) ∧
          (p.presence = .edge → exec .setLane s = .next (answered l.state (retestIdle i w))) ∧
          (p.presence = .edgeLevel →
            (l.lineAsserted = false → exec .setLane s = .next (answered l.state cleared)) ∧
            (l.lineAsserted = true → l.arrival = true → exec .setLane s = .next (answered l.state (retestIdle i w))) ∧
            (l.lineAsserted = true → l.arrival = false →
              (l.state ≠ .quiet → exec .setLane s = .next (answered l.state
                (retestIdle i { w with lanes := s.lanes.set i { l with params := p, arrival := true } }))) ∧
              (l.state = .quiet → exec .setLane s = .next (answered .starting { w with
                lanes := s.lanes.set i { l with
                  params := p, arrival := true, state := .starting, phase := .none, reception := none, spent := spentAfter l 0,
                  powerSave := false, quietMaxEnd := none, leftQuiet := some s.now, quietTimer := .stopped, frameWake := false,
                  burst := p.burstRounds, deadline := s.now + ceilDiv (p.preamble * 10000000) l.rate } })))))))

/-- WAKE_LANE by the state of the lane it names; the reply carries that state (R113, R128, R132, R135; that the state carried is the one in
which the request is carried out log entry 41, the moment of leaving QUIET that a woken lane keeps is log entry 21, the bytes of a frame in
progress that are spent then log entry 22, that on a STARTING or ACTIVE lane the timer starts again at the next test of idleness log entry
20, the rate of the preamble log entry 17, whole microseconds log entry 3). -/
def Obligations.WakeLaneOutcome : Prop :=
  ∀ (s : State) (tag : Byte) (lane : Nat), Held s tag (.wakeLane lane) →
    (6 ≤ lane → exec .wakeLane s = .next (replied 0x94 tag .badField [] s)) ∧
    (∀ (i : LaneIx) (l : Lane), lane = i.val → l = s.lane i →
      (l.state = .off → exec .wakeLane s = .next (replied 0x94 tag .laneOff [] s)) ∧
      (l.state = .quiet → exec .wakeLane s = .next (replied 0x94 tag .ok (leBytes 1 l.state.code) { s with
        lanes := s.lanes.set i { l with
          state := .starting, phase := .none, reception := none, spent := spentAfter l 0, powerSave := false, quietMaxEnd := none,
          leftQuiet := some s.now, quietTimer := .stopped, frameWake := false,
          deadline := s.now + ceilDiv (l.params.preamble * 10000000) l.rate } })) ∧
      (l.state = .starting ∨ l.state = .active → exec .wakeLane s = .next (replied 0x94 tag .ok (leBytes 1 l.state.code) { s with
        lanes := s.lanes.set i { l with quietTimer := .stopped, frameWake := false } })) ∧
      (l.state = .resetting → exec .wakeLane s = .next (replied 0x94 tag .ok (leBytes 1 l.state.code) s)))

/-! ## Invariants -/

/-- The state after reset satisfies every invariant below. -/
def Obligations.ResetIsSafe : Prop :=
  ContentOk State.reset ∧ QueueOk State.reset ∧ BlocksOk State.reset ∧ RecordsOk State.reset ∧ LanesOk State.reset ∧
    RosterOk State.reset ∧ PolicyOk State.reset

/-- Every step keeps the canonical form of content memory, with every address inside the 4 MiB (R1, log entry 10). -/
def Obligations.StepKeepsContentForm : Prop :=
  ∀ s t : State, ContentOk s → step s = .next t → ContentOk t

/-- Every step keeps every block of content memory in exactly one place, the pool or one object, and keeps what the stream records and the
merge engine name PUBLISHED and BUILDING (R1, R2, R3, R11, R18, R29, R36). -/
def Obligations.StepKeepsBlocksAndRecords : Prop :=
  ∀ s t : State, BlocksOk s → RecordsOk s → step s = .next t → BlocksOk t ∧ RecordsOk t

/-- Every step keeps the lane records within their ranges (R68, R116, R117, R121, R134, R140, R160). -/
def Obligations.StepKeepsLanes : Prop :=
  ∀ s t : State, LanesOk s → step s = .next t → LanesOk t

/-- Every step keeps the roster tables in order and in range, the policy values in their ranges and the report queue within its 64 places
(R39, R40, R151, R162). -/
def Obligations.StepKeepsRosterPolicyAndQueue : Prop :=
  ∀ s t : State, RosterOk s → PolicyOk s → QueueOk s → step s = .next t → RosterOk t ∧ PolicyOk t ∧ QueueOk t

end
end

