-- ==== Sys2Proof/Laws/State.lean ====
section
/-! SUPPORT. One lemma per field per update: what each named update of the state leaves as it is, and what it writes. -/

namespace Sys2Proof.Machine

/-! ## modLane -/

@[simp] theorem modLane_content (i : LaneIx) (f : Lane → Lane) (s : State) :
    (modLane i f s).content = s.content := rfl
@[simp] theorem modLane_pool (i : LaneIx) (f : Lane → Lane) (s : State) :
    (modLane i f s).pool = s.pool := rfl
@[simp] theorem modLane_objects (i : LaneIx) (f : Lane → Lane) (s : State) :
    (modLane i f s).objects = s.objects := rfl
@[simp] theorem modLane_fare (i : LaneIx) (f : Lane → Lane) (s : State) :
    (modLane i f s).fare = s.fare := rfl
@[simp] theorem modLane_block (i : LaneIx) (f : Lane → Lane) (s : State) :
    (modLane i f s).block = s.block := rfl
@[simp] theorem modLane_merge (i : LaneIx) (f : Lane → Lane) (s : State) :
    (modLane i f s).merge = s.merge := rfl
@[simp] theorem modLane_vehicles (i : LaneIx) (f : Lane → Lane) (s : State) :
    (modLane i f s).vehicles = s.vehicles := rfl
@[simp] theorem modLane_validators (i : LaneIx) (f : Lane → Lane) (s : State) :
    (modLane i f s).validators = s.validators := rfl
@[simp] theorem modLane_vehicleFull (i : LaneIx) (f : Lane → Lane) (s : State) :
    (modLane i f s).vehicleFull = s.vehicleFull := rfl
@[simp] theorem modLane_validatorFull (i : LaneIx) (f : Lane → Lane) (s : State) :
    (modLane i f s).validatorFull = s.validatorFull := rfl
@[simp] theorem modLane_silenceApplied (i : LaneIx) (f : Lane → Lane) (s : State) :
    (modLane i f s).silenceApplied = s.silenceApplied := rfl
@[simp] theorem modLane_clock (i : LaneIx) (f : Lane → Lane) (s : State) :
    (modLane i f s).clock = s.clock := rfl
@[simp] theorem modLane_scanner (i : LaneIx) (f : Lane → Lane) (s : State) :
    (modLane i f s).scanner = s.scanner := rfl
@[simp] theorem modLane_slots (i : LaneIx) (f : Lane → Lane) (s : State) :
    (modLane i f s).slots = s.slots := rfl
@[simp] theorem modLane_dispatchDue (i : LaneIx) (f : Lane → Lane) (s : State) :
    (modLane i f s).dispatchDue = s.dispatchDue := rfl
@[simp] theorem modLane_policy (i : LaneIx) (f : Lane → Lane) (s : State) :
    (modLane i f s).policy = s.policy := rfl
@[simp] theorem modLane_host (i : LaneIx) (f : Lane → Lane) (s : State) :
    (modLane i f s).host = s.host := rfl
@[simp] theorem modLane_resetPin (i : LaneIx) (f : Lane → Lane) (s : State) :
    (modLane i f s).resetPin = s.resetPin := rfl
@[simp] theorem modLane_now (i : LaneIx) (f : Lane → Lane) (s : State) :
    (modLane i f s).now = s.now := rfl
@[simp] theorem modLane_pending (i : LaneIx) (f : Lane → Lane) (s : State) :
    (modLane i f s).pending = s.pending := rfl
@[simp] theorem modLane_slot (i : LaneIx) (f : Lane → Lane) (s : State) (j : SlotIx) :
    (modLane i f s).slot j = s.slot j := rfl

/-! ## setSlot -/

@[simp] theorem setSlot_content (k : SlotIx) (r : Slot) (s : State) :
    (setSlot k r s).content = s.content := rfl
@[simp] theorem setSlot_pool (k : SlotIx) (r : Slot) (s : State) :
    (setSlot k r s).pool = s.pool := rfl
@[simp] theorem setSlot_objects (k : SlotIx) (r : Slot) (s : State) :
    (setSlot k r s).objects = s.objects := rfl
@[simp] theorem setSlot_fare (k : SlotIx) (r : Slot) (s : State) :
    (setSlot k r s).fare = s.fare := rfl
@[simp] theorem setSlot_block (k : SlotIx) (r : Slot) (s : State) :
    (setSlot k r s).block = s.block := rfl
@[simp] theorem setSlot_merge (k : SlotIx) (r : Slot) (s : State) :
    (setSlot k r s).merge = s.merge := rfl
@[simp] theorem setSlot_vehicles (k : SlotIx) (r : Slot) (s : State) :
    (setSlot k r s).vehicles = s.vehicles := rfl
@[simp] theorem setSlot_validators (k : SlotIx) (r : Slot) (s : State) :
    (setSlot k r s).validators = s.validators := rfl
@[simp] theorem setSlot_vehicleFull (k : SlotIx) (r : Slot) (s : State) :
    (setSlot k r s).vehicleFull = s.vehicleFull := rfl
@[simp] theorem setSlot_validatorFull (k : SlotIx) (r : Slot) (s : State) :
    (setSlot k r s).validatorFull = s.validatorFull := rfl
@[simp] theorem setSlot_silenceApplied (k : SlotIx) (r : Slot) (s : State) :
    (setSlot k r s).silenceApplied = s.silenceApplied := rfl
@[simp] theorem setSlot_clock (k : SlotIx) (r : Slot) (s : State) :
    (setSlot k r s).clock = s.clock := rfl
@[simp] theorem setSlot_scanner (k : SlotIx) (r : Slot) (s : State) :
    (setSlot k r s).scanner = s.scanner := rfl
@[simp] theorem setSlot_dispatchDue (k : SlotIx) (r : Slot) (s : State) :
    (setSlot k r s).dispatchDue = s.dispatchDue := rfl
@[simp] theorem setSlot_lanes (k : SlotIx) (r : Slot) (s : State) :
    (setSlot k r s).lanes = s.lanes := rfl
@[simp] theorem setSlot_policy (k : SlotIx) (r : Slot) (s : State) :
    (setSlot k r s).policy = s.policy := rfl
@[simp] theorem setSlot_host (k : SlotIx) (r : Slot) (s : State) :
    (setSlot k r s).host = s.host := rfl
@[simp] theorem setSlot_resetPin (k : SlotIx) (r : Slot) (s : State) :
    (setSlot k r s).resetPin = s.resetPin := rfl
@[simp] theorem setSlot_now (k : SlotIx) (r : Slot) (s : State) :
    (setSlot k r s).now = s.now := rfl
@[simp] theorem setSlot_pending (k : SlotIx) (r : Slot) (s : State) :
    (setSlot k r s).pending = s.pending := rfl
@[simp] theorem setSlot_lane (k : SlotIx) (r : Slot) (s : State) (j : LaneIx) :
    (setSlot k r s).lane j = s.lane j := rfl

/-! ## modHost -/

@[simp] theorem modHost_content (f : HostLink → HostLink) (s : State) :
    (modHost f s).content = s.content := rfl
@[simp] theorem modHost_pool (f : HostLink → HostLink) (s : State) :
    (modHost f s).pool = s.pool := rfl
@[simp] theorem modHost_objects (f : HostLink → HostLink) (s : State) :
    (modHost f s).objects = s.objects := rfl
@[simp] theorem modHost_fare (f : HostLink → HostLink) (s : State) :
    (modHost f s).fare = s.fare := rfl
@[simp] theorem modHost_block (f : HostLink → HostLink) (s : State) :
    (modHost f s).block = s.block := rfl
@[simp] theorem modHost_merge (f : HostLink → HostLink) (s : State) :
    (modHost f s).merge = s.merge := rfl
@[simp] theorem modHost_vehicles (f : HostLink → HostLink) (s : State) :
    (modHost f s).vehicles = s.vehicles := rfl
@[simp] theorem modHost_validators (f : HostLink → HostLink) (s : State) :
    (modHost f s).validators = s.validators := rfl
@[simp] theorem modHost_vehicleFull (f : HostLink → HostLink) (s : State) :
    (modHost f s).vehicleFull = s.vehicleFull := rfl
@[simp] theorem modHost_validatorFull (f : HostLink → HostLink) (s : State) :
    (modHost f s).validatorFull = s.validatorFull := rfl
@[simp] theorem modHost_silenceApplied (f : HostLink → HostLink) (s : State) :
    (modHost f s).silenceApplied = s.silenceApplied := rfl
@[simp] theorem modHost_clock (f : HostLink → HostLink) (s : State) :
    (modHost f s).clock = s.clock := rfl
@[simp] theorem modHost_scanner (f : HostLink → HostLink) (s : State) :
    (modHost f s).scanner = s.scanner := rfl
@[simp] theorem modHost_slots (f : HostLink → HostLink) (s : State) :
    (modHost f s).slots = s.slots := rfl
@[simp] theorem modHost_dispatchDue (f : HostLink → HostLink) (s : State) :
    (modHost f s).dispatchDue = s.dispatchDue := rfl
@[simp] theorem modHost_lanes (f : HostLink → HostLink) (s : State) :
    (modHost f s).lanes = s.lanes := rfl
@[simp] theorem modHost_policy (f : HostLink → HostLink) (s : State) :
    (modHost f s).policy = s.policy := rfl
@[simp] theorem modHost_resetPin (f : HostLink → HostLink) (s : State) :
    (modHost f s).resetPin = s.resetPin := rfl
@[simp] theorem modHost_now (f : HostLink → HostLink) (s : State) :
    (modHost f s).now = s.now := rfl
@[simp] theorem modHost_pending (f : HostLink → HostLink) (s : State) :
    (modHost f s).pending = s.pending := rfl
@[simp] theorem modHost_lane (f : HostLink → HostLink) (s : State) (j : LaneIx) :
    (modHost f s).lane j = s.lane j := rfl
@[simp] theorem modHost_slot (f : HostLink → HostLink) (s : State) (j : SlotIx) :
    (modHost f s).slot j = s.slot j := rfl

/-! ## advanceTo -/

@[simp] theorem advanceTo_content (t : Time) (s : State) :
    (advanceTo t s).content = s.content := rfl
@[simp] theorem advanceTo_pool (t : Time) (s : State) :
    (advanceTo t s).pool = s.pool := rfl
@[simp] theorem advanceTo_objects (t : Time) (s : State) :
    (advanceTo t s).objects = s.objects := rfl
@[simp] theorem advanceTo_fare (t : Time) (s : State) :
    (advanceTo t s).fare = s.fare := rfl
@[simp] theorem advanceTo_block (t : Time) (s : State) :
    (advanceTo t s).block = s.block := rfl
@[simp] theorem advanceTo_merge (t : Time) (s : State) :
    (advanceTo t s).merge = s.merge := rfl
@[simp] theorem advanceTo_vehicles (t : Time) (s : State) :
    (advanceTo t s).vehicles = s.vehicles := rfl
@[simp] theorem advanceTo_validators (t : Time) (s : State) :
    (advanceTo t s).validators = s.validators := rfl
@[simp] theorem advanceTo_vehicleFull (t : Time) (s : State) :
    (advanceTo t s).vehicleFull = s.vehicleFull := rfl
@[simp] theorem advanceTo_validatorFull (t : Time) (s : State) :
    (advanceTo t s).validatorFull = s.validatorFull := rfl
@[simp] theorem advanceTo_silenceApplied (t : Time) (s : State) :
    (advanceTo t s).silenceApplied = s.silenceApplied := rfl
@[simp] theorem advanceTo_clock (t : Time) (s : State) :
    (advanceTo t s).clock = s.clock := rfl
@[simp] theorem advanceTo_scanner (t : Time) (s : State) :
    (advanceTo t s).scanner = s.scanner := rfl
@[simp] theorem advanceTo_slots (t : Time) (s : State) :
    (advanceTo t s).slots = s.slots := rfl
@[simp] theorem advanceTo_dispatchDue (t : Time) (s : State) :
    (advanceTo t s).dispatchDue = s.dispatchDue := rfl
@[simp] theorem advanceTo_lanes (t : Time) (s : State) :
    (advanceTo t s).lanes = s.lanes := rfl
@[simp] theorem advanceTo_policy (t : Time) (s : State) :
    (advanceTo t s).policy = s.policy := rfl
@[simp] theorem advanceTo_host (t : Time) (s : State) :
    (advanceTo t s).host = s.host := rfl
@[simp] theorem advanceTo_resetPin (t : Time) (s : State) :
    (advanceTo t s).resetPin = s.resetPin := rfl
@[simp] theorem advanceTo_pending (t : Time) (s : State) :
    (advanceTo t s).pending = s.pending := rfl
@[simp] theorem advanceTo_lane (t : Time) (s : State) (j : LaneIx) :
    (advanceTo t s).lane j = s.lane j := rfl
@[simp] theorem advanceTo_slot (t : Time) (s : State) (j : SlotIx) :
    (advanceTo t s).slot j = s.slot j := rfl

/-! ## answer -/

@[simp] theorem answer_content (c : Nat) (g : Byte) (st : Status) (b : List Byte) (s : State) :
    (answer c g st b s).content = s.content := rfl
@[simp] theorem answer_pool (c : Nat) (g : Byte) (st : Status) (b : List Byte) (s : State) :
    (answer c g st b s).pool = s.pool := rfl
@[simp] theorem answer_objects (c : Nat) (g : Byte) (st : Status) (b : List Byte) (s : State) :
    (answer c g st b s).objects = s.objects := rfl
@[simp] theorem answer_fare (c : Nat) (g : Byte) (st : Status) (b : List Byte) (s : State) :
    (answer c g st b s).fare = s.fare := rfl
@[simp] theorem answer_block (c : Nat) (g : Byte) (st : Status) (b : List Byte) (s : State) :
    (answer c g st b s).block = s.block := rfl
@[simp] theorem answer_merge (c : Nat) (g : Byte) (st : Status) (b : List Byte) (s : State) :
    (answer c g st b s).merge = s.merge := rfl
@[simp] theorem answer_vehicles (c : Nat) (g : Byte) (st : Status) (b : List Byte) (s : State) :
    (answer c g st b s).vehicles = s.vehicles := rfl
@[simp] theorem answer_validators (c : Nat) (g : Byte) (st : Status) (b : List Byte) (s : State) :
    (answer c g st b s).validators = s.validators := rfl
@[simp] theorem answer_vehicleFull (c : Nat) (g : Byte) (st : Status) (b : List Byte) (s : State) :
    (answer c g st b s).vehicleFull = s.vehicleFull := rfl
@[simp] theorem answer_validatorFull (c : Nat) (g : Byte) (st : Status) (b : List Byte) (s : State) :
    (answer c g st b s).validatorFull = s.validatorFull := rfl
@[simp] theorem answer_silenceApplied (c : Nat) (g : Byte) (st : Status) (b : List Byte) (s : State) :
    (answer c g st b s).silenceApplied = s.silenceApplied := rfl
@[simp] theorem answer_clock (c : Nat) (g : Byte) (st : Status) (b : List Byte) (s : State) :
    (answer c g st b s).clock = s.clock := rfl
@[simp] theorem answer_scanner (c : Nat) (g : Byte) (st : Status) (b : List Byte) (s : State) :
    (answer c g st b s).scanner = s.scanner := rfl
@[simp] theorem answer_slots (c : Nat) (g : Byte) (st : Status) (b : List Byte) (s : State) :
    (answer c g st b s).slots = s.slots := rfl
@[simp] theorem answer_dispatchDue (c : Nat) (g : Byte) (st : Status) (b : List Byte) (s : State) :
    (answer c g st b s).dispatchDue = s.dispatchDue := rfl
@[simp] theorem answer_lanes (c : Nat) (g : Byte) (st : Status) (b : List Byte) (s : State) :
    (answer c g st b s).lanes = s.lanes := rfl
@[simp] theorem answer_policy (c : Nat) (g : Byte) (st : Status) (b : List Byte) (s : State) :
    (answer c g st b s).policy = s.policy := rfl
@[simp] theorem answer_resetPin (c : Nat) (g : Byte) (st : Status) (b : List Byte) (s : State) :
    (answer c g st b s).resetPin = s.resetPin := rfl
@[simp] theorem answer_now (c : Nat) (g : Byte) (st : Status) (b : List Byte) (s : State) :
    (answer c g st b s).now = s.now := rfl
@[simp] theorem answer_pending (c : Nat) (g : Byte) (st : Status) (b : List Byte) (s : State) :
    (answer c g st b s).pending = s.pending := rfl
@[simp] theorem answer_lane (c : Nat) (g : Byte) (st : Status) (b : List Byte) (s : State) (j : LaneIx) :
    (answer c g st b s).lane j = s.lane j := rfl
@[simp] theorem answer_slot (c : Nat) (g : Byte) (st : Status) (b : List Byte) (s : State) (j : SlotIx) :
    (answer c g st b s).slot j = s.slot j := rfl

/-! ## refuse -/

@[simp] theorem refuse_content (c : Nat) (g : Byte) (st : Status) (s : State) :
    (refuse c g st s).content = s.content := rfl
@[simp] theorem refuse_pool (c : Nat) (g : Byte) (st : Status) (s : State) :
    (refuse c g st s).pool = s.pool := rfl
@[simp] theorem refuse_objects (c : Nat) (g : Byte) (st : Status) (s : State) :
    (refuse c g st s).objects = s.objects := rfl
@[simp] theorem refuse_fare (c : Nat) (g : Byte) (st : Status) (s : State) :
    (refuse c g st s).fare = s.fare := rfl
@[simp] theorem refuse_block (c : Nat) (g : Byte) (st : Status) (s : State) :
    (refuse c g st s).block = s.block := rfl
@[simp] theorem refuse_merge (c : Nat) (g : Byte) (st : Status) (s : State) :
    (refuse c g st s).merge = s.merge := rfl
@[simp] theorem refuse_vehicles (c : Nat) (g : Byte) (st : Status) (s : State) :
    (refuse c g st s).vehicles = s.vehicles := rfl
@[simp] theorem refuse_validators (c : Nat) (g : Byte) (st : Status) (s : State) :
    (refuse c g st s).validators = s.validators := rfl
@[simp] theorem refuse_vehicleFull (c : Nat) (g : Byte) (st : Status) (s : State) :
    (refuse c g st s).vehicleFull = s.vehicleFull := rfl
@[simp] theorem refuse_validatorFull (c : Nat) (g : Byte) (st : Status) (s : State) :
    (refuse c g st s).validatorFull = s.validatorFull := rfl
@[simp] theorem refuse_silenceApplied (c : Nat) (g : Byte) (st : Status) (s : State) :
    (refuse c g st s).silenceApplied = s.silenceApplied := rfl
@[simp] theorem refuse_clock (c : Nat) (g : Byte) (st : Status) (s : State) :
    (refuse c g st s).clock = s.clock := rfl
@[simp] theorem refuse_scanner (c : Nat) (g : Byte) (st : Status) (s : State) :
    (refuse c g st s).scanner = s.scanner := rfl
@[simp] theorem refuse_slots (c : Nat) (g : Byte) (st : Status) (s : State) :
    (refuse c g st s).slots = s.slots := rfl
@[simp] theorem refuse_dispatchDue (c : Nat) (g : Byte) (st : Status) (s : State) :
    (refuse c g st s).dispatchDue = s.dispatchDue := rfl
@[simp] theorem refuse_lanes (c : Nat) (g : Byte) (st : Status) (s : State) :
    (refuse c g st s).lanes = s.lanes := rfl
@[simp] theorem refuse_policy (c : Nat) (g : Byte) (st : Status) (s : State) :
    (refuse c g st s).policy = s.policy := rfl
@[simp] theorem refuse_resetPin (c : Nat) (g : Byte) (st : Status) (s : State) :
    (refuse c g st s).resetPin = s.resetPin := rfl
@[simp] theorem refuse_now (c : Nat) (g : Byte) (st : Status) (s : State) :
    (refuse c g st s).now = s.now := rfl
@[simp] theorem refuse_pending (c : Nat) (g : Byte) (st : Status) (s : State) :
    (refuse c g st s).pending = s.pending := rfl
@[simp] theorem refuse_lane (c : Nat) (g : Byte) (st : Status) (s : State) (j : LaneIx) :
    (refuse c g st s).lane j = s.lane j := rfl
@[simp] theorem refuse_slot (c : Nat) (g : Byte) (st : Status) (s : State) (j : SlotIx) :
    (refuse c g st s).slot j = s.slot j := rfl

/-! ## createObject -/

@[simp] theorem createObject_content (o n : Nat) (mk : List Nat → ContentObject) (s : State) :
    (createObject o n mk s).content = s.content := rfl
@[simp] theorem createObject_fare (o n : Nat) (mk : List Nat → ContentObject) (s : State) :
    (createObject o n mk s).fare = s.fare := rfl
@[simp] theorem createObject_block (o n : Nat) (mk : List Nat → ContentObject) (s : State) :
    (createObject o n mk s).block = s.block := rfl
@[simp] theorem createObject_merge (o n : Nat) (mk : List Nat → ContentObject) (s : State) :
    (createObject o n mk s).merge = s.merge := rfl
@[simp] theorem createObject_vehicles (o n : Nat) (mk : List Nat → ContentObject) (s : State) :
    (createObject o n mk s).vehicles = s.vehicles := rfl
@[simp] theorem createObject_validators (o n : Nat) (mk : List Nat → ContentObject) (s : State) :
    (createObject o n mk s).validators = s.validators := rfl
@[simp] theorem createObject_vehicleFull (o n : Nat) (mk : List Nat → ContentObject) (s : State) :
    (createObject o n mk s).vehicleFull = s.vehicleFull := rfl
@[simp] theorem createObject_validatorFull (o n : Nat) (mk : List Nat → ContentObject) (s : State) :
    (createObject o n mk s).validatorFull = s.validatorFull := rfl
@[simp] theorem createObject_silenceApplied (o n : Nat) (mk : List Nat → ContentObject) (s : State) :
    (createObject o n mk s).silenceApplied = s.silenceApplied := rfl
@[simp] theorem createObject_clock (o n : Nat) (mk : List Nat → ContentObject) (s : State) :
    (createObject o n mk s).clock = s.clock := rfl
@[simp] theorem createObject_scanner (o n : Nat) (mk : List Nat → ContentObject) (s : State) :
    (createObject o n mk s).scanner = s.scanner := rfl
@[simp] theorem createObject_slots (o n : Nat) (mk : List Nat → ContentObject) (s : State) :
    (createObject o n mk s).slots = s.slots := rfl
@[simp] theorem createObject_dispatchDue (o n : Nat) (mk : List Nat → ContentObject) (s : State) :
    (createObject o n mk s).dispatchDue = s.dispatchDue := rfl
@[simp] theorem createObject_lanes (o n : Nat) (mk : List Nat → ContentObject) (s : State) :
    (createObject o n mk s).lanes = s.lanes := rfl
@[simp] theorem createObject_policy (o n : Nat) (mk : List Nat → ContentObject) (s : State) :
    (createObject o n mk s).policy = s.policy := rfl
@[simp] theorem createObject_host (o n : Nat) (mk : List Nat → ContentObject) (s : State) :
    (createObject o n mk s).host = s.host := rfl
@[simp] theorem createObject_resetPin (o n : Nat) (mk : List Nat → ContentObject) (s : State) :
    (createObject o n mk s).resetPin = s.resetPin := rfl
@[simp] theorem createObject_now (o n : Nat) (mk : List Nat → ContentObject) (s : State) :
    (createObject o n mk s).now = s.now := rfl
@[simp] theorem createObject_pending (o n : Nat) (mk : List Nat → ContentObject) (s : State) :
    (createObject o n mk s).pending = s.pending := rfl
@[simp] theorem createObject_lane (o n : Nat) (mk : List Nat → ContentObject) (s : State) (j : LaneIx) :
    (createObject o n mk s).lane j = s.lane j := rfl
@[simp] theorem createObject_slot (o n : Nat) (mk : List Nat → ContentObject) (s : State) (j : SlotIx) :
    (createObject o n mk s).slot j = s.slot j := rfl

/-! ## setRun -/

@[simp] theorem setRun_content (r : ScanRun) (s : State) :
    (setRun r s).content = s.content := rfl
@[simp] theorem setRun_pool (r : ScanRun) (s : State) :
    (setRun r s).pool = s.pool := rfl
@[simp] theorem setRun_objects (r : ScanRun) (s : State) :
    (setRun r s).objects = s.objects := rfl
@[simp] theorem setRun_fare (r : ScanRun) (s : State) :
    (setRun r s).fare = s.fare := rfl
@[simp] theorem setRun_block (r : ScanRun) (s : State) :
    (setRun r s).block = s.block := rfl
@[simp] theorem setRun_merge (r : ScanRun) (s : State) :
    (setRun r s).merge = s.merge := rfl
@[simp] theorem setRun_vehicles (r : ScanRun) (s : State) :
    (setRun r s).vehicles = s.vehicles := rfl
@[simp] theorem setRun_validators (r : ScanRun) (s : State) :
    (setRun r s).validators = s.validators := rfl
@[simp] theorem setRun_vehicleFull (r : ScanRun) (s : State) :
    (setRun r s).vehicleFull = s.vehicleFull := rfl
@[simp] theorem setRun_validatorFull (r : ScanRun) (s : State) :
    (setRun r s).validatorFull = s.validatorFull := rfl
@[simp] theorem setRun_silenceApplied (r : ScanRun) (s : State) :
    (setRun r s).silenceApplied = s.silenceApplied := rfl
@[simp] theorem setRun_clock (r : ScanRun) (s : State) :
    (setRun r s).clock = s.clock := rfl
@[simp] theorem setRun_slots (r : ScanRun) (s : State) :
    (setRun r s).slots = s.slots := rfl
@[simp] theorem setRun_dispatchDue (r : ScanRun) (s : State) :
    (setRun r s).dispatchDue = s.dispatchDue := rfl
@[simp] theorem setRun_lanes (r : ScanRun) (s : State) :
    (setRun r s).lanes = s.lanes := rfl
@[simp] theorem setRun_policy (r : ScanRun) (s : State) :
    (setRun r s).policy = s.policy := rfl
@[simp] theorem setRun_host (r : ScanRun) (s : State) :
    (setRun r s).host = s.host := rfl
@[simp] theorem setRun_resetPin (r : ScanRun) (s : State) :
    (setRun r s).resetPin = s.resetPin := rfl
@[simp] theorem setRun_now (r : ScanRun) (s : State) :
    (setRun r s).now = s.now := rfl
@[simp] theorem setRun_pending (r : ScanRun) (s : State) :
    (setRun r s).pending = s.pending := rfl
@[simp] theorem setRun_lane (r : ScanRun) (s : State) (j : LaneIx) :
    (setRun r s).lane j = s.lane j := rfl
@[simp] theorem setRun_slot (r : ScanRun) (s : State) (j : SlotIx) :
    (setRun r s).slot j = s.slot j := rfl

/-! ## modBinding -/

@[simp] theorem modBinding_content (k : SlotIx) (f : Binding → Binding) (s : State) :
    (modBinding k f s).content = s.content := by unfold modBinding; split <;> rfl
@[simp] theorem modBinding_pool (k : SlotIx) (f : Binding → Binding) (s : State) :
    (modBinding k f s).pool = s.pool := by unfold modBinding; split <;> rfl
@[simp] theorem modBinding_objects (k : SlotIx) (f : Binding → Binding) (s : State) :
    (modBinding k f s).objects = s.objects := by unfold modBinding; split <;> rfl
@[simp] theorem modBinding_fare (k : SlotIx) (f : Binding → Binding) (s : State) :
    (modBinding k f s).fare = s.fare := by unfold modBinding; split <;> rfl
@[simp] theorem modBinding_block (k : SlotIx) (f : Binding → Binding) (s : State) :
    (modBinding k f s).block = s.block := by unfold modBinding; split <;> rfl
@[simp] theorem modBinding_merge (k : SlotIx) (f : Binding → Binding) (s : State) :
    (modBinding k f s).merge = s.merge := by unfold modBinding; split <;> rfl
@[simp] theorem modBinding_vehicles (k : SlotIx) (f : Binding → Binding) (s : State) :
    (modBinding k f s).vehicles = s.vehicles := by unfold modBinding; split <;> rfl
@[simp] theorem modBinding_validators (k : SlotIx) (f : Binding → Binding) (s : State) :
    (modBinding k f s).validators = s.validators := by unfold modBinding; split <;> rfl
@[simp] theorem modBinding_vehicleFull (k : SlotIx) (f : Binding → Binding) (s : State) :
    (modBinding k f s).vehicleFull = s.vehicleFull := by unfold modBinding; split <;> rfl
@[simp] theorem modBinding_validatorFull (k : SlotIx) (f : Binding → Binding) (s : State) :
    (modBinding k f s).validatorFull = s.validatorFull := by unfold modBinding; split <;> rfl
@[simp] theorem modBinding_silenceApplied (k : SlotIx) (f : Binding → Binding) (s : State) :
    (modBinding k f s).silenceApplied = s.silenceApplied := by unfold modBinding; split <;> rfl
@[simp] theorem modBinding_clock (k : SlotIx) (f : Binding → Binding) (s : State) :
    (modBinding k f s).clock = s.clock := by unfold modBinding; split <;> rfl
@[simp] theorem modBinding_scanner (k : SlotIx) (f : Binding → Binding) (s : State) :
    (modBinding k f s).scanner = s.scanner := by unfold modBinding; split <;> rfl
@[simp] theorem modBinding_dispatchDue (k : SlotIx) (f : Binding → Binding) (s : State) :
    (modBinding k f s).dispatchDue = s.dispatchDue := by unfold modBinding; split <;> rfl
@[simp] theorem modBinding_lanes (k : SlotIx) (f : Binding → Binding) (s : State) :
    (modBinding k f s).lanes = s.lanes := by unfold modBinding; split <;> rfl
@[simp] theorem modBinding_policy (k : SlotIx) (f : Binding → Binding) (s : State) :
    (modBinding k f s).policy = s.policy := by unfold modBinding; split <;> rfl
@[simp] theorem modBinding_host (k : SlotIx) (f : Binding → Binding) (s : State) :
    (modBinding k f s).host = s.host := by unfold modBinding; split <;> rfl
@[simp] theorem modBinding_resetPin (k : SlotIx) (f : Binding → Binding) (s : State) :
    (modBinding k f s).resetPin = s.resetPin := by unfold modBinding; split <;> rfl
@[simp] theorem modBinding_now (k : SlotIx) (f : Binding → Binding) (s : State) :
    (modBinding k f s).now = s.now := by unfold modBinding; split <;> rfl
@[simp] theorem modBinding_pending (k : SlotIx) (f : Binding → Binding) (s : State) :
    (modBinding k f s).pending = s.pending := by unfold modBinding; split <;> rfl
@[simp] theorem modBinding_lane (k : SlotIx) (f : Binding → Binding) (s : State) (j : LaneIx) :
    (modBinding k f s).lane j = s.lane j := by unfold modBinding; split <;> rfl

/-! ## modObject -/

@[simp] theorem modObject_content (o : Nat) (f : ContentObject → ContentObject) (s : State) :
    (modObject o f s).content = s.content := by unfold modObject; split <;> rfl
@[simp] theorem modObject_pool (o : Nat) (f : ContentObject → ContentObject) (s : State) :
    (modObject o f s).pool = s.pool := by unfold modObject; split <;> rfl
@[simp] theorem modObject_fare (o : Nat) (f : ContentObject → ContentObject) (s : State) :
    (modObject o f s).fare = s.fare := by unfold modObject; split <;> rfl
@[simp] theorem modObject_block (o : Nat) (f : ContentObject → ContentObject) (s : State) :
    (modObject o f s).block = s.block := by unfold modObject; split <;> rfl
@[simp] theorem modObject_merge (o : Nat) (f : ContentObject → ContentObject) (s : State) :
    (modObject o f s).merge = s.merge := by unfold modObject; split <;> rfl
@[simp] theorem modObject_vehicles (o : Nat) (f : ContentObject → ContentObject) (s : State) :
    (modObject o f s).vehicles = s.vehicles := by unfold modObject; split <;> rfl
@[simp] theorem modObject_validators (o : Nat) (f : ContentObject → ContentObject) (s : State) :
    (modObject o f s).validators = s.validators := by unfold modObject; split <;> rfl
@[simp] theorem modObject_vehicleFull (o : Nat) (f : ContentObject → ContentObject) (s : State) :
    (modObject o f s).vehicleFull = s.vehicleFull := by unfold modObject; split <;> rfl
@[simp] theorem modObject_validatorFull (o : Nat) (f : ContentObject → ContentObject) (s : State) :
    (modObject o f s).validatorFull = s.validatorFull := by unfold modObject; split <;> rfl
@[simp] theorem modObject_silenceApplied (o : Nat) (f : ContentObject → ContentObject) (s : State) :
    (modObject o f s).silenceApplied = s.silenceApplied := by unfold modObject; split <;> rfl
@[simp] theorem modObject_clock (o : Nat) (f : ContentObject → ContentObject) (s : State) :
    (modObject o f s).clock = s.clock := by unfold modObject; split <;> rfl
@[simp] theorem modObject_scanner (o : Nat) (f : ContentObject → ContentObject) (s : State) :
    (modObject o f s).scanner = s.scanner := by unfold modObject; split <;> rfl
@[simp] theorem modObject_slots (o : Nat) (f : ContentObject → ContentObject) (s : State) :
    (modObject o f s).slots = s.slots := by unfold modObject; split <;> rfl
@[simp] theorem modObject_dispatchDue (o : Nat) (f : ContentObject → ContentObject) (s : State) :
    (modObject o f s).dispatchDue = s.dispatchDue := by unfold modObject; split <;> rfl
@[simp] theorem modObject_lanes (o : Nat) (f : ContentObject → ContentObject) (s : State) :
    (modObject o f s).lanes = s.lanes := by unfold modObject; split <;> rfl
@[simp] theorem modObject_policy (o : Nat) (f : ContentObject → ContentObject) (s : State) :
    (modObject o f s).policy = s.policy := by unfold modObject; split <;> rfl
@[simp] theorem modObject_host (o : Nat) (f : ContentObject → ContentObject) (s : State) :
    (modObject o f s).host = s.host := by unfold modObject; split <;> rfl
@[simp] theorem modObject_resetPin (o : Nat) (f : ContentObject → ContentObject) (s : State) :
    (modObject o f s).resetPin = s.resetPin := by unfold modObject; split <;> rfl
@[simp] theorem modObject_now (o : Nat) (f : ContentObject → ContentObject) (s : State) :
    (modObject o f s).now = s.now := by unfold modObject; split <;> rfl
@[simp] theorem modObject_pending (o : Nat) (f : ContentObject → ContentObject) (s : State) :
    (modObject o f s).pending = s.pending := by unfold modObject; split <;> rfl
@[simp] theorem modObject_lane (o : Nat) (f : ContentObject → ContentObject) (s : State) (j : LaneIx) :
    (modObject o f s).lane j = s.lane j := by unfold modObject; split <;> rfl
@[simp] theorem modObject_slot (o : Nat) (f : ContentObject → ContentObject) (s : State) (j : SlotIx) :
    (modObject o f s).slot j = s.slot j := by unfold modObject; split <;> rfl

/-! ## modVehicle -/

@[simp] theorem modVehicle_content (v : Nat) (f : Vehicle → Vehicle) (s : State) :
    (modVehicle v f s).content = s.content := by unfold modVehicle; split <;> rfl
@[simp] theorem modVehicle_pool (v : Nat) (f : Vehicle → Vehicle) (s : State) :
    (modVehicle v f s).pool = s.pool := by unfold modVehicle; split <;> rfl
@[simp] theorem modVehicle_objects (v : Nat) (f : Vehicle → Vehicle) (s : State) :
    (modVehicle v f s).objects = s.objects := by unfold modVehicle; split <;> rfl
@[simp] theorem modVehicle_fare (v : Nat) (f : Vehicle → Vehicle) (s : State) :
    (modVehicle v f s).fare = s.fare := by unfold modVehicle; split <;> rfl
@[simp] theorem modVehicle_block (v : Nat) (f : Vehicle → Vehicle) (s : State) :
    (modVehicle v f s).block = s.block := by unfold modVehicle; split <;> rfl
@[simp] theorem modVehicle_merge (v : Nat) (f : Vehicle → Vehicle) (s : State) :
    (modVehicle v f s).merge = s.merge := by unfold modVehicle; split <;> rfl
@[simp] theorem modVehicle_validators (v : Nat) (f : Vehicle → Vehicle) (s : State) :
    (modVehicle v f s).validators = s.validators := by unfold modVehicle; split <;> rfl
@[simp] theorem modVehicle_vehicleFull (v : Nat) (f : Vehicle → Vehicle) (s : State) :
    (modVehicle v f s).vehicleFull = s.vehicleFull := by unfold modVehicle; split <;> rfl
@[simp] theorem modVehicle_validatorFull (v : Nat) (f : Vehicle → Vehicle) (s : State) :
    (modVehicle v f s).validatorFull = s.validatorFull := by unfold modVehicle; split <;> rfl
@[simp] theorem modVehicle_silenceApplied (v : Nat) (f : Vehicle → Vehicle) (s : State) :
    (modVehicle v f s).silenceApplied = s.silenceApplied := by unfold modVehicle; split <;> rfl
@[simp] theorem modVehicle_clock (v : Nat) (f : Vehicle → Vehicle) (s : State) :
    (modVehicle v f s).clock = s.clock := by unfold modVehicle; split <;> rfl
@[simp] theorem modVehicle_scanner (v : Nat) (f : Vehicle → Vehicle) (s : State) :
    (modVehicle v f s).scanner = s.scanner := by unfold modVehicle; split <;> rfl
@[simp] theorem modVehicle_slots (v : Nat) (f : Vehicle → Vehicle) (s : State) :
    (modVehicle v f s).slots = s.slots := by unfold modVehicle; split <;> rfl
@[simp] theorem modVehicle_dispatchDue (v : Nat) (f : Vehicle → Vehicle) (s : State) :
    (modVehicle v f s).dispatchDue = s.dispatchDue := by unfold modVehicle; split <;> rfl
@[simp] theorem modVehicle_lanes (v : Nat) (f : Vehicle → Vehicle) (s : State) :
    (modVehicle v f s).lanes = s.lanes := by unfold modVehicle; split <;> rfl
@[simp] theorem modVehicle_policy (v : Nat) (f : Vehicle → Vehicle) (s : State) :
    (modVehicle v f s).policy = s.policy := by unfold modVehicle; split <;> rfl
@[simp] theorem modVehicle_host (v : Nat) (f : Vehicle → Vehicle) (s : State) :
    (modVehicle v f s).host = s.host := by unfold modVehicle; split <;> rfl
@[simp] theorem modVehicle_resetPin (v : Nat) (f : Vehicle → Vehicle) (s : State) :
    (modVehicle v f s).resetPin = s.resetPin := by unfold modVehicle; split <;> rfl
@[simp] theorem modVehicle_now (v : Nat) (f : Vehicle → Vehicle) (s : State) :
    (modVehicle v f s).now = s.now := by unfold modVehicle; split <;> rfl
@[simp] theorem modVehicle_pending (v : Nat) (f : Vehicle → Vehicle) (s : State) :
    (modVehicle v f s).pending = s.pending := by unfold modVehicle; split <;> rfl
@[simp] theorem modVehicle_lane (v : Nat) (f : Vehicle → Vehicle) (s : State) (j : LaneIx) :
    (modVehicle v f s).lane j = s.lane j := by unfold modVehicle; split <;> rfl
@[simp] theorem modVehicle_slot (v : Nat) (f : Vehicle → Vehicle) (s : State) (j : SlotIx) :
    (modVehicle v f s).slot j = s.slot j := by unfold modVehicle; split <;> rfl

/-! ## modValidator -/

@[simp] theorem modValidator_content (i : Nat) (f : Validator → Validator) (s : State) :
    (modValidator i f s).content = s.content := by unfold modValidator; split <;> rfl
@[simp] theorem modValidator_pool (i : Nat) (f : Validator → Validator) (s : State) :
    (modValidator i f s).pool = s.pool := by unfold modValidator; split <;> rfl
@[simp] theorem modValidator_objects (i : Nat) (f : Validator → Validator) (s : State) :
    (modValidator i f s).objects = s.objects := by unfold modValidator; split <;> rfl
@[simp] theorem modValidator_fare (i : Nat) (f : Validator → Validator) (s : State) :
    (modValidator i f s).fare = s.fare := by unfold modValidator; split <;> rfl
@[simp] theorem modValidator_block (i : Nat) (f : Validator → Validator) (s : State) :
    (modValidator i f s).block = s.block := by unfold modValidator; split <;> rfl
@[simp] theorem modValidator_merge (i : Nat) (f : Validator → Validator) (s : State) :
    (modValidator i f s).merge = s.merge := by unfold modValidator; split <;> rfl
@[simp] theorem modValidator_vehicles (i : Nat) (f : Validator → Validator) (s : State) :
    (modValidator i f s).vehicles = s.vehicles := by unfold modValidator; split <;> rfl
@[simp] theorem modValidator_vehicleFull (i : Nat) (f : Validator → Validator) (s : State) :
    (modValidator i f s).vehicleFull = s.vehicleFull := by unfold modValidator; split <;> rfl
@[simp] theorem modValidator_validatorFull (i : Nat) (f : Validator → Validator) (s : State) :
    (modValidator i f s).validatorFull = s.validatorFull := by unfold modValidator; split <;> rfl
@[simp] theorem modValidator_silenceApplied (i : Nat) (f : Validator → Validator) (s : State) :
    (modValidator i f s).silenceApplied = s.silenceApplied := by unfold modValidator; split <;> rfl
@[simp] theorem modValidator_clock (i : Nat) (f : Validator → Validator) (s : State) :
    (modValidator i f s).clock = s.clock := by unfold modValidator; split <;> rfl
@[simp] theorem modValidator_scanner (i : Nat) (f : Validator → Validator) (s : State) :
    (modValidator i f s).scanner = s.scanner := by unfold modValidator; split <;> rfl
@[simp] theorem modValidator_slots (i : Nat) (f : Validator → Validator) (s : State) :
    (modValidator i f s).slots = s.slots := by unfold modValidator; split <;> rfl
@[simp] theorem modValidator_dispatchDue (i : Nat) (f : Validator → Validator) (s : State) :
    (modValidator i f s).dispatchDue = s.dispatchDue := by unfold modValidator; split <;> rfl
@[simp] theorem modValidator_lanes (i : Nat) (f : Validator → Validator) (s : State) :
    (modValidator i f s).lanes = s.lanes := by unfold modValidator; split <;> rfl
@[simp] theorem modValidator_policy (i : Nat) (f : Validator → Validator) (s : State) :
    (modValidator i f s).policy = s.policy := by unfold modValidator; split <;> rfl
@[simp] theorem modValidator_host (i : Nat) (f : Validator → Validator) (s : State) :
    (modValidator i f s).host = s.host := by unfold modValidator; split <;> rfl
@[simp] theorem modValidator_resetPin (i : Nat) (f : Validator → Validator) (s : State) :
    (modValidator i f s).resetPin = s.resetPin := by unfold modValidator; split <;> rfl
@[simp] theorem modValidator_now (i : Nat) (f : Validator → Validator) (s : State) :
    (modValidator i f s).now = s.now := by unfold modValidator; split <;> rfl
@[simp] theorem modValidator_pending (i : Nat) (f : Validator → Validator) (s : State) :
    (modValidator i f s).pending = s.pending := by unfold modValidator; split <;> rfl
@[simp] theorem modValidator_lane (i : Nat) (f : Validator → Validator) (s : State) (j : LaneIx) :
    (modValidator i f s).lane j = s.lane j := by unfold modValidator; split <;> rfl
@[simp] theorem modValidator_slot (i : Nat) (f : Validator → Validator) (s : State) (j : SlotIx) :
    (modValidator i f s).slot j = s.slot j := by unfold modValidator; split <;> rfl

/-! ## freeObject -/

@[simp] theorem freeObject_content (o : Nat) (s : State) :
    (freeObject o s).content = s.content := by unfold freeObject; split <;> rfl
@[simp] theorem freeObject_fare (o : Nat) (s : State) :
    (freeObject o s).fare = s.fare := by unfold freeObject; split <;> rfl
@[simp] theorem freeObject_block (o : Nat) (s : State) :
    (freeObject o s).block = s.block := by unfold freeObject; split <;> rfl
@[simp] theorem freeObject_merge (o : Nat) (s : State) :
    (freeObject o s).merge = s.merge := by unfold freeObject; split <;> rfl
@[simp] theorem freeObject_vehicles (o : Nat) (s : State) :
    (freeObject o s).vehicles = s.vehicles := by unfold freeObject; split <;> rfl
@[simp] theorem freeObject_validators (o : Nat) (s : State) :
    (freeObject o s).validators = s.validators := by unfold freeObject; split <;> rfl
@[simp] theorem freeObject_vehicleFull (o : Nat) (s : State) :
    (freeObject o s).vehicleFull = s.vehicleFull := by unfold freeObject; split <;> rfl
@[simp] theorem freeObject_validatorFull (o : Nat) (s : State) :
    (freeObject o s).validatorFull = s.validatorFull := by unfold freeObject; split <;> rfl
@[simp] theorem freeObject_silenceApplied (o : Nat) (s : State) :
    (freeObject o s).silenceApplied = s.silenceApplied := by unfold freeObject; split <;> rfl
@[simp] theorem freeObject_clock (o : Nat) (s : State) :
    (freeObject o s).clock = s.clock := by unfold freeObject; split <;> rfl
@[simp] theorem freeObject_scanner (o : Nat) (s : State) :
    (freeObject o s).scanner = s.scanner := by unfold freeObject; split <;> rfl
@[simp] theorem freeObject_slots (o : Nat) (s : State) :
    (freeObject o s).slots = s.slots := by unfold freeObject; split <;> rfl
@[simp] theorem freeObject_dispatchDue (o : Nat) (s : State) :
    (freeObject o s).dispatchDue = s.dispatchDue := by unfold freeObject; split <;> rfl
@[simp] theorem freeObject_lanes (o : Nat) (s : State) :
    (freeObject o s).lanes = s.lanes := by unfold freeObject; split <;> rfl
@[simp] theorem freeObject_policy (o : Nat) (s : State) :
    (freeObject o s).policy = s.policy := by unfold freeObject; split <;> rfl
@[simp] theorem freeObject_host (o : Nat) (s : State) :
    (freeObject o s).host = s.host := by unfold freeObject; split <;> rfl
@[simp] theorem freeObject_resetPin (o : Nat) (s : State) :
    (freeObject o s).resetPin = s.resetPin := by unfold freeObject; split <;> rfl
@[simp] theorem freeObject_now (o : Nat) (s : State) :
    (freeObject o s).now = s.now := by unfold freeObject; split <;> rfl
@[simp] theorem freeObject_pending (o : Nat) (s : State) :
    (freeObject o s).pending = s.pending := by unfold freeObject; split <;> rfl
@[simp] theorem freeObject_lane (o : Nat) (s : State) (j : LaneIx) :
    (freeObject o s).lane j = s.lane j := by unfold freeObject; split <;> rfl
@[simp] theorem freeObject_slot (o : Nat) (s : State) (j : SlotIx) :
    (freeObject o s).slot j = s.slot j := by unfold freeObject; split <;> rfl

/-! ## submit -/

@[simp] theorem submit_content (b : ReportBody) (s : State) :
    (submit b s).content = s.content := by unfold submit; split_ifs <;> rfl
@[simp] theorem submit_pool (b : ReportBody) (s : State) :
    (submit b s).pool = s.pool := by unfold submit; split_ifs <;> rfl
@[simp] theorem submit_objects (b : ReportBody) (s : State) :
    (submit b s).objects = s.objects := by unfold submit; split_ifs <;> rfl
@[simp] theorem submit_fare (b : ReportBody) (s : State) :
    (submit b s).fare = s.fare := by unfold submit; split_ifs <;> rfl
@[simp] theorem submit_block (b : ReportBody) (s : State) :
    (submit b s).block = s.block := by unfold submit; split_ifs <;> rfl
@[simp] theorem submit_merge (b : ReportBody) (s : State) :
    (submit b s).merge = s.merge := by unfold submit; split_ifs <;> rfl
@[simp] theorem submit_vehicles (b : ReportBody) (s : State) :
    (submit b s).vehicles = s.vehicles := by unfold submit; split_ifs <;> rfl
@[simp] theorem submit_validators (b : ReportBody) (s : State) :
    (submit b s).validators = s.validators := by unfold submit; split_ifs <;> rfl
@[simp] theorem submit_vehicleFull (b : ReportBody) (s : State) :
    (submit b s).vehicleFull = s.vehicleFull := by unfold submit; split_ifs <;> rfl
@[simp] theorem submit_validatorFull (b : ReportBody) (s : State) :
    (submit b s).validatorFull = s.validatorFull := by unfold submit; split_ifs <;> rfl
@[simp] theorem submit_silenceApplied (b : ReportBody) (s : State) :
    (submit b s).silenceApplied = s.silenceApplied := by unfold submit; split_ifs <;> rfl
@[simp] theorem submit_clock (b : ReportBody) (s : State) :
    (submit b s).clock = s.clock := by unfold submit; split_ifs <;> rfl
@[simp] theorem submit_scanner (b : ReportBody) (s : State) :
    (submit b s).scanner = s.scanner := by unfold submit; split_ifs <;> rfl
@[simp] theorem submit_slots (b : ReportBody) (s : State) :
    (submit b s).slots = s.slots := by unfold submit; split_ifs <;> rfl
@[simp] theorem submit_dispatchDue (b : ReportBody) (s : State) :
    (submit b s).dispatchDue = s.dispatchDue := by unfold submit; split_ifs <;> rfl
@[simp] theorem submit_lanes (b : ReportBody) (s : State) :
    (submit b s).lanes = s.lanes := by unfold submit; split_ifs <;> rfl
@[simp] theorem submit_policy (b : ReportBody) (s : State) :
    (submit b s).policy = s.policy := by unfold submit; split_ifs <;> rfl
@[simp] theorem submit_resetPin (b : ReportBody) (s : State) :
    (submit b s).resetPin = s.resetPin := by unfold submit; split_ifs <;> rfl
@[simp] theorem submit_now (b : ReportBody) (s : State) :
    (submit b s).now = s.now := by unfold submit; split_ifs <;> rfl
@[simp] theorem submit_pending (b : ReportBody) (s : State) :
    (submit b s).pending = s.pending := by unfold submit; split_ifs <;> rfl
@[simp] theorem submit_lane (b : ReportBody) (s : State) (j : LaneIx) :
    (submit b s).lane j = s.lane j := by unfold submit; split_ifs <;> rfl
@[simp] theorem submit_slot (b : ReportBody) (s : State) (j : SlotIx) :
    (submit b s).slot j = s.slot j := by unfold submit; split_ifs <;> rfl

/-! ## What the updates write -/

theorem get_set_same {α : Type} {n : Nat} (v : Vector α n) (i : Fin n) (x : α) : (v.set i x).get i = x := by
  change (v.set i x)[i.val] = x
  simp

theorem get_set_other {α : Type} {n : Nat} (v : Vector α n) (i j : Fin n) (x : α) (h : j ≠ i) :
    (v.set i x).get j = v.get j := by
  have h' : i.val ≠ j.val := fun e => h (Fin.ext e.symm)
  change (v.set i x)[j.val] = v[j.val]
  simp [h']

@[simp] theorem modLane_lane_same (i : LaneIx) (f : Lane → Lane) (s : State) : (modLane i f s).lane i = f (s.lane i) := by
  simp [State.lane, modLane, get_set_same]

theorem modLane_lane_other (i j : LaneIx) (f : Lane → Lane) (s : State) (h : j ≠ i) : (modLane i f s).lane j = s.lane j := by
  simp [State.lane, modLane, get_set_other _ _ _ _ h]

theorem modLane_lane (i j : LaneIx) (f : Lane → Lane) (s : State) :
    (modLane i f s).lane j = if j = i then f (s.lane j) else s.lane j := by
  by_cases h : j = i
  · subst h; simp
  · simp [h, modLane_lane_other i j f s h]

@[simp] theorem setSlot_slot_same (k : SlotIx) (r : Slot) (s : State) : (setSlot k r s).slot k = r := by
  simp [State.slot, setSlot, get_set_same]

theorem setSlot_slot_other (k j : SlotIx) (r : Slot) (s : State) (h : j ≠ k) : (setSlot k r s).slot j = s.slot j := by
  simp [State.slot, setSlot, get_set_other _ _ _ _ h]

theorem setSlot_slot (k j : SlotIx) (r : Slot) (s : State) : (setSlot k r s).slot j = if j = k then r else s.slot j := by
  by_cases h : j = k
  · subst h; simp
  · simp [h, setSlot_slot_other k j r s h]

@[simp] theorem modHost_host (f : HostLink → HostLink) (s : State) : (modHost f s).host = f s.host := rfl

@[simp] theorem advanceTo_now (t : Time) (s : State) : (advanceTo t s).now = max s.now t := rfl

@[simp] theorem answer_host (c : Nat) (g : Byte) (st : Status) (b : List Byte) (s : State) :
    (answer c g st b s).host = { s.host with replyPlace := some ⟨c + 0x80, g, st, b⟩, processor := .idle } := rfl

@[simp] theorem refuse_host (c : Nat) (g : Byte) (st : Status) (s : State) :
    (refuse c g st s).host = { s.host with replyPlace := some ⟨c + 0x80, g, st, []⟩, processor := .idle } := rfl

end Sys2Proof.Machine
end

