-- ==== Sys2Proof/Laws/Table.lean ====
section
/-! SUPPORT. What the table and memory operations do: reading back, rising order, and the canonical form of content memory. -/

namespace Sys2Proof.Machine

variable {α : Type}

/-! ## Reading back -/

theorem look_put_same (t : Table α) (k : Nat) (a : α) : look (put t k a) k = some a := by
  induction t with
  | nil => simp [put, look]
  | cons p t ih =>
    obtain ⟨i, b⟩ := p
    simp only [put]
    split_ifs with h1 h2
    · simp [look]
    · simp [look]
    · simp only [look]
      rw [if_neg (fun h => h2 h.symm)]
      exact ih

theorem look_put_other (t : Table α) (k j : Nat) (a : α) (h : j ≠ k) : look (put t k a) j = look t j := by
  induction t with
  | nil => simp [put, look, Ne.symm h]
  | cons p t ih =>
    obtain ⟨i, b⟩ := p
    simp only [put]
    split_ifs with h1 h2
    · simp [look, Ne.symm h]
    · subst h2
      simp [look, Ne.symm h]
    · simp only [look, ih]

/-- An entry of a table in rising order lies in the table's range. -/
theorem range_of_look (cap : Nat) (t : Table α) : ∀ (from_ k : Nat) (a : α), tableWf cap from_ t = true → look t k = some a →
    from_ ≤ k ∧ k < cap := by
  induction t with
  | nil => intro from_ k a _ h; simp [look] at h
  | cons p t ih =>
    obtain ⟨i, b⟩ := p
    intro from_ k a hw h
    simp only [tableWf, Bool.and_eq_true, decide_eq_true_eq] at hw
    simp only [look] at h
    split_ifs at h with h1
    · omega
    · have := ih (i + 1) k a hw.2 h
      omega

theorem look_erase_same (cap : Nat) (t : Table α) (k : Nat) : ∀ from_, tableWf cap from_ t = true → look (erase t k) k = none := by
  induction t with
  | nil => intro _ _; simp [erase, look]
  | cons p t ih =>
    obtain ⟨i, b⟩ := p
    intro from_ hw
    simp only [tableWf, Bool.and_eq_true, decide_eq_true_eq] at hw
    simp only [erase]
    split_ifs with h
    · cases hl : look t k with
      | none => rfl
      | some a =>
        have := range_of_look cap t (i + 1) k a hw.2 hl
        omega
    · simp only [look]
      rw [if_neg h]
      exact ih (i + 1) hw.2

theorem look_erase_other (t : Table α) (k j : Nat) (h : j ≠ k) : look (erase t k) j = look t j := by
  induction t with
  | nil => simp [erase]
  | cons p t ih =>
    obtain ⟨i, b⟩ := p
    simp only [erase]
    split_ifs with h1
    · simp [look, h1, Ne.symm h]
    · simp only [look, ih]

/-! ## Rising order -/

theorem tableWf_weaken (cap : Nat) (t : Table α) (a b : Nat) (hab : b ≤ a) (h : tableWf cap a t = true) :
    tableWf cap b t = true := by
  cases t with
  | nil => rfl
  | cons p t =>
    simp only [tableWf, Bool.and_eq_true, decide_eq_true_eq] at h ⊢
    exact ⟨⟨by omega, h.1.2⟩, h.2⟩

theorem tableWf_put (cap : Nat) (t : Table α) (k : Nat) (a : α) : ∀ from_, from_ ≤ k → k < cap → tableWf cap from_ t = true →
    tableWf cap from_ (put t k a) = true := by
  induction t with
  | nil => intro from_ h1 h2 _; simp [put, tableWf, h1, h2]
  | cons p t ih =>
    obtain ⟨i, b⟩ := p
    intro from_ h1 h2 hw
    simp only [tableWf, Bool.and_eq_true, decide_eq_true_eq] at hw
    simp only [put]
    split_ifs with h3 h4
    · simp only [tableWf, Bool.and_eq_true, decide_eq_true_eq]
      exact ⟨⟨h1, h2⟩, ⟨⟨by omega, hw.1.2⟩, hw.2⟩⟩
    · subst h4
      simp only [tableWf, Bool.and_eq_true, decide_eq_true_eq]
      exact ⟨hw.1, hw.2⟩
    · simp only [tableWf, Bool.and_eq_true, decide_eq_true_eq]
      exact ⟨hw.1, ih (i + 1) (by omega) h2 hw.2⟩

theorem tableWf_erase (cap : Nat) (t : Table α) (k : Nat) : ∀ from_, tableWf cap from_ t = true →
    tableWf cap from_ (erase t k) = true := by
  induction t with
  | nil => intro _ _; rfl
  | cons p t ih =>
    obtain ⟨i, b⟩ := p
    intro from_ hw
    simp only [tableWf, Bool.and_eq_true, decide_eq_true_eq] at hw
    simp only [erase]
    split_ifs with h
    · exact tableWf_weaken cap t (i + 1) from_ (by omega) hw.2
    · simp only [tableWf, Bool.and_eq_true, decide_eq_true_eq]
      exact ⟨hw.1, ih (i + 1) hw.2⟩

/-- The lowest unused number is unused. -/
theorem look_lowestUnused (cap : Nat) (t : Table α) : ∀ from_, tableWf cap from_ t = true →
    look t (lowestUnused from_ t) = none := by
  induction t with
  | nil => intro _ _; rfl
  | cons p t ih =>
    obtain ⟨i, b⟩ := p
    intro from_ hw
    simp only [tableWf, Bool.and_eq_true, decide_eq_true_eq] at hw
    simp only [lowestUnused]
    split_ifs with h
    · have hl := ih (from_ + 1) (by rw [← h]; exact hw.2)
      have hge : ∀ (u : Table α) (n : Nat), n ≤ lowestUnused n u := by
        intro u
        induction u with
        | nil => intro n; simp [lowestUnused]
        | cons q u ihu =>
          intro n
          simp only [lowestUnused]
          split_ifs
          · have := ihu (n + 1); omega
          · exact le_refl n
      have := hge t (from_ + 1)
      simp only [look]
      rw [if_neg (by omega)]
      exact hl
    · simp only [look]
      rw [if_neg h]
      cases hl : look t from_ with
      | none => rfl
      | some a =>
        have := range_of_look cap t (i + 1) from_ a hw.2 hl
        omega

/-- A table in order lists exactly the entries that it looks up. -/
theorem mem_iff_look (cap : Nat) (t : Table α) (k : Nat) (a : α) :
    ∀ from_, tableWf cap from_ t = true → ((k, a) ∈ t ↔ look t k = some a) := by
  induction t generalizing a with
  | nil => simp [look]
  | cons p t ih =>
    obtain ⟨i, b⟩ := p
    intro from_ h
    simp only [tableWf, Bool.and_eq_true, decide_eq_true_eq] at h
    by_cases hk : i = k
    · subst hk
      have : ∀ a, (i, a) ∉ t := fun a ha => by
        have := (range_of_look cap t (i + 1) i a h.2 ((ih a _ h.2).1 ha)).1
        omega
      simp [look, this, eq_comm]
    · simp [look, hk, Ne.symm hk, ih a _ h.2]

/-- The numbers of a table in order rise. -/
theorem keys_lt (cap : Nat) (t : Table α) : ∀ from_, tableWf cap from_ t = true → t.Pairwise (fun p q => p.1 < q.1) := by
  induction t with
  | nil => simp
  | cons p t ih =>
    obtain ⟨i, b⟩ := p
    intro from_ h
    simp only [tableWf, Bool.and_eq_true, decide_eq_true_eq] at h
    refine List.pairwise_cons.2 ⟨fun q hq => ?_, ih _ h.2⟩
    have := (range_of_look cap t (i + 1) q.1 q.2 h.2 ((mem_iff_look cap t q.1 q.2 _ h.2).1 hq)).1
    exact this

/-- The candidate has the smallest measure, and among equal ones the first number; none only of an empty table. -/
theorem oldestBy_min (m : α → Nat) (t : Table α) (h : t.Pairwise (fun p q => p.1 < q.1)) :
    (oldestBy m t = none → t = []) ∧
    ∀ p, oldestBy m t = some p → p ∈ t ∧ ∀ q ∈ t, m p.2 < m q.2 ∨ (m p.2 = m q.2 ∧ p.1 ≤ q.1) := by
  induction t with
  | nil => simp [oldestBy]
  | cons a t ih =>
    obtain ⟨i, b⟩ := a
    obtain ⟨h1, h2⟩ := List.pairwise_cons.1 h
    obtain ⟨e1, e2⟩ := ih h2
    cases ho : oldestBy m t with
    | none => simp [oldestBy, e1 ho]
    | some c =>
      obtain ⟨j, d⟩ := c
      obtain ⟨f1, f2⟩ := e2 _ ho
      have hj := h1 _ f1
      simp only [oldestBy, ho]
      refine ⟨by split <;> simp, fun p hp => ?_⟩
      split at hp <;> cases hp
      · refine ⟨by simp, fun q hq => ?_⟩
        rcases List.mem_cons.1 hq with rfl | hq
        · simp
        · have := f2 q hq; have := h1 _ hq; simp at *; omega
      · refine ⟨by simp [f1], fun q hq => ?_⟩
        rcases List.mem_cons.1 hq with rfl | hq
        · simp at *; omega
        · exact f2 q hq

/-! ## Content memory -/

theorem readByte_writeByte_same (m : Memory) (a : Nat) (b : Byte) (h : Memory.wf m = true) :
    readByte (writeByte m a b) a = b := by
  simp only [Memory.wf, Bool.and_eq_true] at h
  unfold readByte writeByte
  split_ifs with hb
  · rw [look_erase_same _ m a 0 h.1]
    exact hb.symm
  · rw [look_put_same]
    rfl

theorem readByte_writeByte_other (m : Memory) (a c : Nat) (b : Byte) (h : c ≠ a) :
    readByte (writeByte m a b) c = readByte m c := by
  unfold readByte writeByte
  split_ifs
  · rw [look_erase_other m a c h]
  · rw [look_put_other m a c b h]

theorem all_put (q : Nat × α → Bool) (t : Table α) (k : Nat) (a : α) (h : t.all q = true) (ha : q (k, a) = true) :
    (put t k a).all q = true := by
  induction t with
  | nil => simp [put, ha]
  | cons p t ih =>
    obtain ⟨i, b⟩ := p
    simp only [List.all_cons, Bool.and_eq_true] at h
    simp only [put]
    split_ifs with h1 h2
    · simp [List.all_cons, ha, h.1, h.2]
    · simp [List.all_cons, ha, h.2]
    · simp [List.all_cons, h.1, ih h.2]

theorem all_erase (q : Nat × α → Bool) (t : Table α) (k : Nat) (h : t.all q = true) : (erase t k).all q = true := by
  induction t with
  | nil => rfl
  | cons p t ih =>
    obtain ⟨i, b⟩ := p
    simp only [List.all_cons, Bool.and_eq_true] at h
    simp only [erase]
    split_ifs with h1
    · exact h.2
    · simp [List.all_cons, h.1, ih h.2]

/-- A write inside the 4 MiB keeps the canonical form. -/
theorem wf_writeByte (m : Memory) (a : Nat) (b : Byte) (ha : a < Config.contentBytes) (h : Memory.wf m = true) :
    Memory.wf (writeByte m a b) = true := by
  simp only [Memory.wf, Bool.and_eq_true] at h ⊢
  unfold writeByte
  split_ifs with hb
  · exact ⟨tableWf_erase _ m a 0 h.1, all_erase _ m a h.2⟩
  · exact ⟨tableWf_put _ m a b 0 (Nat.zero_le a) ha h.1, all_put _ m a b h.2 (by simpa using hb)⟩

/-- Reset memory, which lists nothing, has the canonical form. -/
theorem wf_nil : Memory.wf [] = true := rfl

end Sys2Proof.Machine
end

