-- ==== Sys2Proof/Laws/Inside.lean ====
section
/-! SUPPORT. What the shared operations leave as it is: each of them works inside the part (Safety.lean, Inside). -/

namespace Sys2Proof.Machine

/-! ## The relation -/

theorem Inside.refl (s : State) : Inside s s :=
  ⟨rfl, rfl, rfl, rfl, rfl, rfl, rfl, rfl, id, id, fun _ h => h, id, id⟩

theorem Inside.trans {s t u : State} (h : Inside s t) (k : Inside t u) : Inside s u where
  content := k.content.trans h.content
  policy := k.policy.trans h.policy
  clock := k.clock.trans h.clock
  now := k.now.trans h.now
  scanner := k.scanner.trans h.scanner
  resetPin := k.resetPin.trans h.resetPin
  pending := k.pending.trans h.pending
  link := by
    have h1 := h.link
    have h2 := k.link
    unfold SameLink at *
    rw [h2, h1]
  queue := fun q => k.queue (h.queue q)
  lanes := fun q => k.lanes (h.lanes q)
  on := fun i q => k.on i (h.on i q)
  blocks := fun q => k.blocks (h.blocks q)
  roster := fun q => k.roster (h.roster q)

/-- A change outside all that `Inside` speaks of. -/
theorem Inside.of_same {s t : State} (h1 : t.content = s.content := by rfl) (h2 : t.policy = s.policy := by rfl)
    (h3 : t.clock = s.clock := by rfl) (h4 : t.now = s.now := by rfl) (h5 : t.scanner = s.scanner := by rfl)
    (h6 : t.resetPin = s.resetPin := by rfl) (h7 : t.pending = s.pending := by rfl) (h8 : t.host = s.host := by rfl)
    (h9 : t.lanes = s.lanes := by rfl) (h10 : t.objects = s.objects := by rfl) (h11 : t.pool = s.pool := by rfl)
    (h12 : t.vehicles = s.vehicles := by rfl) (h13 : t.validators = s.validators := by rfl) : Inside s t where
  content := h1
  policy := h2
  clock := h3
  now := h4
  scanner := h5
  resetPin := h6
  pending := h7
  link := by unfold SameLink; rw [h8]
  queue := by unfold QueueOk; rw [h8]; exact id
  lanes := by unfold LanesOk State.lane; rw [h9]; exact id
  on := by intro i; unfold State.lane; rw [h9]; exact id
  blocks := by unfold BlocksOk allBlocks; rw [h10, h11]; exact id
  roster := by unfold RosterOk; rw [h12, h13]; exact id

theorem Inside.foldl {α : Type} (f : State → α → State) (hf : ∀ t a, Inside t (f t a)) (l : List α) (s : State) :
    Inside s (l.foldl f s) := by
  induction l generalizing s with
  | nil => exact Inside.refl s
  | cons a l ih => exact (hf s a).trans (ih (f s a))

/-! ## Records -/

theorem inside_modLane (i : LaneIx) (f : Lane → Lane) (s : State) (hok : (s.lane i).Ok → (f (s.lane i)).Ok)
    (hon : (s.lane i).state ≠ .off → (f (s.lane i)).state ≠ .off) : Inside s (modLane i f s) where
  content := rfl
  policy := rfl
  clock := rfl
  now := rfl
  scanner := rfl
  resetPin := rfl
  pending := rfl
  link := rfl
  queue := id
  lanes := by
    intro h j
    by_cases e : j = i
    · subst e
      rw [modLane_lane_same]
      exact hok (h j)
    · rw [modLane_lane_other i j f s e]
      exact h j
  on := by
    intro j h
    by_cases e : j = i
    · subst e
      rw [modLane_lane_same]
      exact hon h
    · rw [modLane_lane_other i j f s e]
      exact h
  blocks := id
  roster := id

theorem inside_dispatchDue (b : Bool) (s : State) : Inside s { s with dispatchDue := b } := Inside.of_same

theorem inside_setSlot (k : SlotIx) (r : Slot) (s : State) : Inside s (setSlot k r s) := Inside.of_same

theorem inside_modBinding (k : SlotIx) (f : Binding → Binding) (s : State) : Inside s (modBinding k f s) := by
  unfold modBinding
  split
  · exact Inside.refl s
  · exact inside_setSlot k _ s

/-- A change of the roster tables alone that keeps them in order. -/
theorem Inside.of_roster {s t : State} (vs : Table Vehicle) (us : Table Validator) (b c d : Bool) (n : Nat)
    (ht : t = { s with vehicles := vs, validators := us, vehicleFull := b, validatorFull := c, dispatchDue := d,
                       silenceApplied := n })
    (h : RosterOk s → tableWf Config.vehicleEntries 0 vs = true ∧ tableWf Config.validatorEntries 0 us = true) : Inside s t := by
  subst ht
  exact { content := rfl, policy := rfl, clock := rfl, now := rfl, scanner := rfl, resetPin := rfl, pending := rfl,
          link := rfl, queue := id, lanes := id, on := fun _ h => h, blocks := id, roster := h }

/-- A vehicle entry in use may be replaced. -/
theorem rosterOk_vehicle (s : State) (v : Nat) (r q : Vehicle) (h : RosterOk s) (hl : look s.vehicles v = some r) :
    tableWf Config.vehicleEntries 0 (put s.vehicles v q) = true ∧ tableWf Config.validatorEntries 0 s.validators = true :=
  ⟨tableWf_put _ _ v q 0 (Nat.zero_le v) (range_of_look _ _ 0 v r h.1 hl).2 h.1, h.2⟩

/-- A validator entry in use may be replaced. -/
theorem rosterOk_validator (s : State) (i : Nat) (r q : Validator) (h : RosterOk s) (hl : look s.validators i = some r) :
    tableWf Config.vehicleEntries 0 s.vehicles = true ∧ tableWf Config.validatorEntries 0 (put s.validators i q) = true :=
  ⟨h.1, tableWf_put _ _ i q 0 (Nat.zero_le i) (range_of_look _ _ 0 i r h.2 hl).2 h.2⟩

theorem inside_modVehicle (v : Nat) (f : Vehicle → Vehicle) (s : State) : Inside s (modVehicle v f s) := by
  unfold modVehicle
  split
  · exact Inside.refl s
  · rename_i r hl
    exact Inside.of_roster _ _ _ _ _ _ rfl (fun h => rosterOk_vehicle s v r _ h hl)

theorem inside_modValidator (i : Nat) (f : Validator → Validator) (s : State) : Inside s (modValidator i f s) := by
  unfold modValidator
  split
  · exact Inside.refl s
  · rename_i r hl
    exact Inside.of_roster _ _ _ _ _ _ rfl (fun h => rosterOk_validator s i r _ h hl)

/-! ## Blocks of objects -/

/-- The blocks of a table of objects, as a list. -/
def tableBlocks (t : Table ContentObject) : List Nat := t.flatMap (fun p => p.2.blocks)

/-- Replacing an entry by one with the same blocks keeps the blocks. -/
theorem tableBlocks_put_same (t : Table ContentObject) (o : Nat) (r q : ContentObject) (cap from_ : Nat)
    (hw : tableWf cap from_ t = true) (hl : look t o = some r) (hb : q.blocks = r.blocks) :
    tableBlocks (put t o q) = tableBlocks t := by
  induction t generalizing from_ with
  | nil => simp [look] at hl
  | cons p t ih =>
    obtain ⟨i, b⟩ := p
    simp only [tableWf, Bool.and_eq_true, decide_eq_true_eq] at hw
    simp only [look] at hl
    simp only [put]
    split_ifs at hl with h
    · subst h
      simp only [Option.some.injEq] at hl
      subst hl
      simp [tableBlocks, hb]
    · have := range_of_look cap t (i + 1) o r hw.2 hl
      rw [if_neg (by omega), if_neg (fun e => h e.symm)]
      have e := ih (i + 1) hw.2 hl
      simp only [tableBlocks, List.flatMap_cons] at e ⊢
      rw [e]

/-- A new entry adds its blocks. -/
theorem tableBlocks_put_new (t : Table ContentObject) (o : Nat) (q : ContentObject) (hl : look t o = none) :
    (tableBlocks (put t o q)).Perm (q.blocks ++ tableBlocks t) := by
  induction t with
  | nil => simp [put, tableBlocks]
  | cons p t ih =>
    obtain ⟨i, b⟩ := p
    simp only [look] at hl
    split_ifs at hl with h
    simp only [put]
    split_ifs with h1 h2
    · simp [tableBlocks]
    · exact absurd h2.symm h
    · have e := ih hl
      simp only [tableBlocks, List.flatMap_cons] at e ⊢
      refine (List.Perm.append_left b.blocks e).trans ?_
      rw [← List.append_assoc, ← List.append_assoc]
      exact List.Perm.append_right _ List.perm_append_comm

/-- An erased entry gives its blocks up. -/
theorem tableBlocks_erase (t : Table ContentObject) (o : Nat) (r : ContentObject) (hl : look t o = some r) :
    (r.blocks ++ tableBlocks (erase t o)).Perm (tableBlocks t) := by
  induction t with
  | nil => simp [look] at hl
  | cons p t ih =>
    obtain ⟨i, b⟩ := p
    simp only [look] at hl
    simp only [erase]
    split_ifs at hl ⊢ with h
    · simp only [Option.some.injEq] at hl
      subst hl
      simp [tableBlocks]
    · have e := ih hl
      simp only [tableBlocks, List.flatMap_cons] at e ⊢
      rw [← List.append_assoc]
      refine (List.Perm.append_right _ List.perm_append_comm).trans ?_
      rw [List.append_assoc]
      exact List.Perm.append_left _ e

theorem allBlocks_eq (s : State) : allBlocks s = s.pool ++ tableBlocks s.objects := rfl

/-- An entry of an object table in order has an id below 48. -/
theorem objectId_lt (s : State) (o : Nat) (r : ContentObject) (h : BlocksOk s) (hl : look s.objects o = some r) : o < 48 :=
  (range_of_look _ _ 0 o r h.1 hl).2

theorem blocksOk_replace (s : State) (o : Nat) (r q : ContentObject) (h : BlocksOk s) (hl : look s.objects o = some r)
    (hb : q.blocks = r.blocks) : BlocksOk { s with objects := put s.objects o q } := by
  refine ⟨tableWf_put _ _ o q 0 (Nat.zero_le o) (objectId_lt s o r h hl) h.1, ?_⟩
  have e := tableBlocks_put_same s.objects o r q _ 0 h.1 hl hb
  have h2 := h.2
  rw [allBlocks_eq] at h2 ⊢
  change (s.pool ++ tableBlocks (put s.objects o q)).Perm _
  rw [e]
  exact h2

theorem inside_modObject (o : Nat) (f : ContentObject → ContentObject) (s : State)
    (hf : ∀ r, (f r).blocks = r.blocks) : Inside s (modObject o f s) := by
  unfold modObject
  split
  · exact Inside.refl s
  · rename_i r hl
    exact { content := rfl, policy := rfl, clock := rfl, now := rfl, scanner := rfl, resetPin := rfl, pending := rfl,
            link := rfl, queue := id, lanes := id, on := fun _ h => h,
            blocks := fun h => blocksOk_replace s o r (f r) h hl (hf r), roster := id }

theorem inside_freeObject (o : Nat) (s : State) : Inside s (freeObject o s) := by
  unfold freeObject
  split
  · exact Inside.refl s
  · rename_i r hl
    refine { content := rfl, policy := rfl, clock := rfl, now := rfl, scanner := rfl, resetPin := rfl, pending := rfl,
             link := rfl, queue := id, lanes := id, on := fun _ h => h, blocks := ?_, roster := id }
    intro h
    refine ⟨tableWf_erase _ _ o 0 h.1, ?_⟩
    have h2 := h.2
    rw [allBlocks_eq] at h2 ⊢
    change (s.pool ++ r.blocks ++ tableBlocks (erase s.objects o)).Perm _
    rw [List.append_assoc]
    exact (List.Perm.append_left s.pool (tableBlocks_erase s.objects o r hl)).trans h2

/-! ## Reports -/

theorem lowestLevel_mem (q : List Report) (h : lowestLevel q < 3) : ∃ r ∈ q, r.body.level = lowestLevel q := by
  induction q with
  | nil => simp [lowestLevel] at h
  | cons r q ih =>
    have e : lowestLevel (r :: q) = min r.body.level (lowestLevel q) := rfl
    by_cases c : r.body.level ≤ lowestLevel q
    · exact ⟨r, by simp, by rw [e]; omega⟩
    · have e' : lowestLevel (r :: q) = lowestLevel q := by rw [e]; omega
      obtain ⟨x, hx, hl⟩ := ih (by omega)
      exact ⟨x, by simp [hx], by rw [e']; exact hl⟩

theorem length_dropOldest (n : Nat) (q : List Report) (h : ∃ r ∈ q, r.body.level = n) :
    (dropOldest n q).length + 1 = q.length := by
  induction q with
  | nil => obtain ⟨r, hr, _⟩ := h; simp at hr
  | cons r q ih =>
    simp only [dropOldest]
    split_ifs with c
    · simp
    · obtain ⟨x, hx, hl⟩ := h
      have : x ∈ q := by
        rcases List.mem_cons.mp hx with e | e
        · exact absurd (e ▸ hl) c
        · exact e
      simp only [List.length_cons]
      rw [ih ⟨x, this, hl⟩]

theorem queueOk_submit (b : ReportBody) (s : State) (h : QueueOk s) : QueueOk (submit b s) := by
  unfold QueueOk at *
  unfold submit
  split_ifs with h1 h2 h3
  · exact h
  · simp only [List.length_append, List.length_singleton]
    simp only [Config.reportPlaces] at *
    omega
  · simp only [List.length_append, List.length_singleton]
    rw [length_dropOldest _ _ (lowestLevel_mem _ h3.2)]
    exact h
  · exact h

theorem sameLink_submit (b : ReportBody) (s : State) : SameLink s (submit b s) := by
  unfold SameLink submit
  split_ifs <;> rfl

theorem inside_submit (b : ReportBody) (s : State) : Inside s (submit b s) where
  content := submit_content b s
  policy := submit_policy b s
  clock := submit_clock b s
  now := submit_now b s
  scanner := submit_scanner b s
  resetPin := submit_resetPin b s
  pending := submit_pending b s
  link := sameLink_submit b s
  queue := queueOk_submit b s
  lanes := by unfold LanesOk; intro h i; rw [submit_lane]; exact h i
  on := by intro i h; rw [submit_lane]; exact h
  blocks := by unfold BlocksOk allBlocks; rw [submit_objects, submit_pool]; exact id
  roster := by unfold RosterOk; rw [submit_vehicles, submit_validators]; exact id

theorem inside_submitAll (bs : List ReportBody) (s : State) : Inside s (submitAll bs s) :=
  Inside.foldl (fun t b => submit b t) (fun t b => inside_submit b t) bs s

/-! ## References and retirement -/

theorem inside_takeRef (o : Nat) (s : State) : Inside s (takeRef o s) := inside_modObject o _ s (fun _ => rfl)

theorem inside_releaseRef (o : Nat) (s : State) : Inside s (releaseRef o s) := inside_modObject o _ s (fun _ => rfl)

theorem inside_retireIfUnused (o : Nat) (s : State) : Inside s (retireIfUnused o s) := by
  unfold retireIfUnused
  split
  · exact Inside.refl s
  · split_ifs
    · exact (inside_freeObject o s).trans (inside_submit _ _)
    · exact Inside.refl s

theorem inside_dropRef (o : Nat) (s : State) : Inside s (dropRef o s) :=
  (inside_releaseRef o s).trans (inside_retireIfUnused o _)

/-! ## Lanes -/

/-- A lane change that touches none of the bounded fields and not the state. -/
theorem inside_modLane_free (i : LaneIx) (f : Lane → Lane) (s : State)
    (h : ∀ l : Lane, (f l).state = l.state ∧ (f l).params = l.params ∧ (f l).efficiency = l.efficiency ∧
      (f l).answers = l.answers ∧ (f l).acks = l.acks ∧ (f l).wake = l.wake ∧ (f l).burst = l.burst ∧
      (f l).breaks = l.breaks) : Inside s (modLane i f s) := by
  obtain ⟨h1, h2, h3, h4, h5, h6, h7, h8⟩ := h (s.lane i)
  refine inside_modLane i f s (fun k => ⟨?_, ?_, ?_, ?_, ?_, ?_, ?_⟩) ?_
  · rw [h2]; exact k.params
  · rw [h1, h3]; exact k.efficiency
  · rw [h4]; exact k.answers
  · rw [h5]; exact k.acks
  · rw [h6]; exact k.wake
  · rw [h7]; exact k.burst
  · rw [h8]; exact k.breaks
  · rw [h1]; exact id

theorem inside_retestIdle (i : LaneIx) (s : State) : Inside s (retestIdle i s) := by
  unfold retestIdle
  simp only
  split_ifs <;> first
    | exact Inside.refl s
    | exact inside_modLane_free i _ s (fun _ => ⟨rfl, rfl, rfl, rfl, rfl, rfl, rfl, rfl⟩)

/-! ## Work lists -/

theorem inside_writeHeld (i : Nat) (f b : Option Nat) (s : State) : Inside s (writeHeld i f b s).1 := by
  unfold writeHeld
  split
  · exact Inside.refl s
  · rename_i r hl
    exact Inside.of_roster _ _ _ _ _ _ rfl (fun h => rosterOk_validator s i r _ h hl)

theorem inside_publishValidator (first : Option Stream) (s : State) (i : Nat) : Inside s (publishValidator first s i) := by
  unfold publishValidator
  split
  · exact Inside.refl s
  · rename_i r hl
    refine Inside.trans ?_ (inside_submitAll _ _)
    exact Inside.of_roster _ _ _ _ _ _ rfl (fun h => rosterOk_validator s i r _ h hl)

theorem inside_publishRoster (first : Option Stream) (s : State) : Inside s (publishRoster first s) :=
  Inside.foldl _ (inside_publishValidator first) _ s

/-! ## Slots -/

theorem inside_settleValidator (b : Binding) (c : EndCond) (s : State) : Inside s (settleValidator b c s).1 := by
  unfold settleValidator
  repeat' split
  all_goals first
    | exact inside_writeHeld _ _ _ s
    | exact inside_modValidator _ _ s
    | exact Inside.refl s

theorem inside_unbindRoster (b : Binding) (s : State) : Inside s (unbindRoster b s) :=
  (inside_modValidator _ _ s).trans (inside_modVehicle _ _ _)

theorem orphan_free (k : SlotIx) (l : Lane) : (orphan k l).state = l.state ∧ (orphan k l).params = l.params ∧
    (orphan k l).efficiency = l.efficiency ∧ (orphan k l).answers = l.answers ∧ (orphan k l).acks = l.acks ∧
    (orphan k l).wake = l.wake ∧ (orphan k l).burst = l.burst ∧ (orphan k l).breaks = l.breaks := by
  unfold orphan
  repeat' split
  all_goals exact ⟨rfl, rfl, rfl, rfl, rfl, rfl, rfl, rfl⟩

theorem markCountOnly_free (k : SlotIx) (l : Lane) : (markCountOnly k l).state = l.state ∧
    (markCountOnly k l).params = l.params ∧ (markCountOnly k l).efficiency = l.efficiency ∧
    (markCountOnly k l).answers = l.answers ∧ (markCountOnly k l).acks = l.acks ∧ (markCountOnly k l).wake = l.wake ∧
    (markCountOnly k l).burst = l.burst ∧ (markCountOnly k l).breaks = l.breaks := by
  unfold markCountOnly
  repeat' split
  all_goals exact ⟨rfl, rfl, rfl, rfl, rfl, rfl, rfl, rfl⟩

/-- The end of a binding works inside the part. -/
theorem inside_endSlot (k : SlotIx) (c : EndCond) (u : Bool) (s : State) : Inside s (endSlot k c u s) := by
  unfold endSlot
  split
  · exact Inside.refl s
  · rename_i b _
    refine Inside.trans ?_ (inside_retestIdle b.lane _)
    refine Inside.trans ?_ (inside_dispatchDue true _)
    refine Inside.trans ?_ (inside_dropRef b.object _)
    refine Inside.trans ?_ (inside_submitAll _ _)
    refine Inside.trans ?_ (inside_submit _ _)
    refine Inside.trans ?_ (inside_modLane_free b.lane (orphan k) _ (orphan_free k))
    refine Inside.trans ?_ (inside_setSlot k _ _)
    exact (inside_settleValidator b c s).trans (inside_unbindRoster b _)

theorem inside_endSlotsWhere (p : Binding → Bool) (c : EndCond) (s : State) : Inside s (endSlotsWhere p c s) := by
  refine Inside.foldl _ (fun t k => ?_) _ s
  split
  · exact Inside.refl t
  · split_ifs
    · exact inside_endSlot k c false t
    · exact Inside.refl t

theorem inside_endExhausted (k : SlotIx) (b : Binding) (s : State) : Inside s (endExhausted k b s) := by
  unfold endExhausted
  split_ifs <;> exact inside_endSlot _ _ _ _

theorem inside_slotError (k : SlotIx) (b : Binding) (e : Binding → Binding) (s : State) : Inside s (slotError k b e s) := by
  unfold slotError
  split_ifs
  · exact (inside_modBinding _ _ _).trans (inside_endExhausted _ _ _)
  · exact inside_modBinding _ _ _

theorem inside_addUseful (i : LaneIx) (n : Nat) (s : State) : Inside s (addUseful i n s) :=
  inside_modLane_free i _ s (fun _ => ⟨rfl, rfl, rfl, rfl, rfl, rfl, rfl, rfl⟩)

theorem inside_putOutcome (k : SlotIx) (b : Binding) (o : SlotOutcome) (s : State) : Inside s (putOutcome k b o s) := by
  unfold putOutcome
  split
  · split_ifs
    · exact (inside_modBinding _ _ _).trans (inside_endSlot _ _ _ _)
    · exact inside_modBinding _ _ _
  · exact inside_modBinding _ _ _
  · exact inside_slotError _ _ _ _

theorem inside_pendingOutcome (k : SlotIx) (b : Binding) (s : State) : Inside s (pendingOutcome k b s) := by
  unfold pendingOutcome
  split_ifs
  · exact inside_modBinding _ _ _
  · exact inside_slotError _ _ _ _

theorem inside_badCheckOutcome (k : SlotIx) (b : Binding) (s : State) : Inside s (badCheckOutcome k b s) := by
  unfold badCheckOutcome
  split_ifs
  · exact inside_modBinding _ _ _
  · exact inside_modBinding _ _ _
  · exact (inside_modBinding _ _ _).trans (inside_endSlot _ _ _ _)

theorem inside_fetchOutcome (k : SlotIx) (b : Binding) (o : SlotOutcome) (s : State) : Inside s (fetchOutcome k b o s) := by
  unfold fetchOutcome
  repeat' split
  all_goals first
    | exact (inside_addUseful _ _ _).trans (inside_modBinding _ _ _)
    | exact inside_modBinding _ _ _
    | exact (inside_modBinding _ _ _).trans (inside_endSlot _ _ _ _)
    | exact inside_badCheckOutcome _ _ _
    | exact inside_pendingOutcome _ _ _
    | exact inside_slotError _ _ _ _

theorem inside_probeOutcome (k : SlotIx) (b : Binding) (o : SlotOutcome) (s : State) : Inside s (probeOutcome k b o s) := by
  unfold probeOutcome
  split
  · exact inside_modBinding _ _ _
  · exact inside_modBinding _ _ _
  · exact inside_slotError _ _ _ _

/-- The outcome of a transaction works inside the part. -/
theorem inside_slotOutcome (k : SlotIx) (c : Bool) (o : SlotOutcome) (s : State) : Inside s (slotOutcome k c o s) := by
  unfold slotOutcome
  split
  · exact Inside.refl s
  · split_ifs
    · unfold countOnlyOutcome
      split_ifs
      · exact inside_slotError _ _ _ _
      · exact inside_modBinding _ _ _
    · split
      · exact inside_putOutcome _ _ _ _
      · exact inside_fetchOutcome _ _ _ _
      · exact inside_probeOutcome _ _ _ _

theorem inside_retireSlot (o : Nat) (s : State) (k : SlotIx) : Inside s (retireSlot o s k) := by
  unfold retireSlot
  split
  · exact Inside.refl s
  · split_ifs
    · exact (inside_modBinding _ _ _).trans (inside_modLane_free _ _ _ (markCountOnly_free k))
    · exact Inside.refl s

theorem inside_retireSlots (o : Nat) (s : State) : Inside s (retireSlots o s) := Inside.foldl _ (inside_retireSlot o) _ s

end Sys2Proof.Machine
end

