-- ==== Sys2Proof/Laws/Rounds.lean ====
section
/-! SUPPORT. What the operations of lane rounds leave as it is: the choice points (Safety.lean, Chosen) and the changes of a lane's state
(Safety.lean, Inside). -/

namespace Sys2Proof.Machine

/-! ## The relation of choice points -/

theorem LaneChosen.refl (a : Lane) : LaneChosen a a :=
  ⟨rfl, rfl, rfl, rfl, rfl, rfl, rfl, rfl, rfl, rfl, rfl, rfl, rfl, rfl, rfl, rfl, rfl, rfl, rfl, rfl, rfl, rfl, le_refl _⟩

/-- A change of the fields that a choice point may change. -/
theorem laneChosen_free (a b : Lane) (h1 : b.state = a.state := by rfl) (h2 : b.phase = a.phase := by rfl)
    (h3 : b.params = a.params := by rfl) (h4 : b.efficiency = a.efficiency := by rfl) (h5 : b.useful = a.useful := by rfl)
    (h6 : b.roundStart = a.roundStart := by rfl) (h7 : b.rate = a.rate := by rfl) (h8 : b.inLength = a.inLength := by rfl)
    (h9 : b.inWindow = a.inWindow := by rfl) (h10 : b.deadline = a.deadline := by rfl)
    (h11 : b.doublingDue = a.doublingDue := by rfl) (h12 : b.windowByArrival = a.windowByArrival := by rfl)
    (h13 : b.acks = a.acks := by rfl) (h14 : b.wake = a.wake := by rfl) (h15 : b.arrival = a.arrival := by rfl)
    (h16 : b.lineAsserted = a.lineAsserted := by rfl) (h17 : b.quietMaxEnd = a.quietMaxEnd := by rfl)
    (h23 : b.leftQuiet = a.leftQuiet := by rfl) (h18 : b.burst = a.burst := by rfl) (h19 : b.fault = a.fault := by rfl) (h20 : b.breaks = a.breaks := by rfl)
    (h21 : b.powerSave = a.powerSave := by rfl) (h22 : b.answers.length ≤ a.answers.length := by exact le_refl _) :
    LaneChosen a b :=
  ⟨h1, h2, h3, h4, h5, h6, h7, h8, h9, h10, h11, h12, h13, h14, h15, h16, h17, h23, h18, h19, h20, h21, h22⟩

theorem LaneChosen.trans {a b c : Lane} (h : LaneChosen a b) (k : LaneChosen b c) : LaneChosen a c where
  state := k.state.trans h.state
  phase := k.phase.trans h.phase
  params := k.params.trans h.params
  efficiency := k.efficiency.trans h.efficiency
  useful := k.useful.trans h.useful
  roundStart := k.roundStart.trans h.roundStart
  rate := k.rate.trans h.rate
  inLength := k.inLength.trans h.inLength
  inWindow := k.inWindow.trans h.inWindow
  deadline := k.deadline.trans h.deadline
  doublingDue := k.doublingDue.trans h.doublingDue
  windowByArrival := k.windowByArrival.trans h.windowByArrival
  acks := k.acks.trans h.acks
  wake := k.wake.trans h.wake
  arrival := k.arrival.trans h.arrival
  lineAsserted := k.lineAsserted.trans h.lineAsserted
  quietMaxEnd := k.quietMaxEnd.trans h.quietMaxEnd
  leftQuiet := k.leftQuiet.trans h.leftQuiet
  burst := k.burst.trans h.burst
  fault := k.fault.trans h.fault
  breaks := k.breaks.trans h.breaks
  powerSave := k.powerSave.trans h.powerSave
  answers := k.answers.trans h.answers

theorem SlotChosen.refl (a : Slot) : SlotChosen a a := rfl

theorem SlotChosen.trans {a b c : Slot} (h : SlotChosen a b) (k : SlotChosen b c) : SlotChosen a c := Eq.trans k h

theorem Chosen.refl (s : State) : Chosen s s := ⟨rfl, fun _ => LaneChosen.refl _, fun _ => SlotChosen.refl _⟩

theorem Chosen.trans {s t u : State} (h : Chosen s t) (k : Chosen t u) : Chosen s u where
  rest := by
    have h1 := h.rest
    have h2 := k.rest
    rw [h1] at h2
    exact h2
  lanes i := (h.lanes i).trans (k.lanes i)
  slots j := (h.slots j).trans (k.slots j)

theorem Chosen.foldl {α : Type} (f : State → α → State) (hf : ∀ t a, Chosen t (f t a)) (l : List α) (s : State) :
    Chosen s (l.foldl f s) := by
  induction l generalizing s with
  | nil => exact Chosen.refl s
  | cons a l ih => exact (hf s a).trans (ih (f s a))

theorem chosen_modLane (i : LaneIx) (f : Lane → Lane) (s : State) (h : LaneChosen (s.lane i) (f (s.lane i))) :
    Chosen s (modLane i f s) where
  rest := rfl
  lanes j := by
    by_cases e : j = i
    · subst e
      rw [modLane_lane_same]
      exact h
    · rw [modLane_lane_other i j f s e]
      exact LaneChosen.refl _
  slots k := SlotChosen.refl _

/-- A choice point changes nothing else inside the part. -/
theorem Chosen.inside {s t : State} (h : Chosen s t) : Inside s t where
  content := by rw [h.rest]
  policy := by rw [h.rest]
  clock := by rw [h.rest]
  now := by rw [h.rest]
  scanner := by rw [h.rest]
  resetPin := by rw [h.rest]
  pending := by rw [h.rest]
  link := by unfold SameLink; rw [h.rest]
  queue := by unfold QueueOk; rw [h.rest]; exact id
  lanes := by
    intro q i
    have c := h.lanes i
    have k := q i
    refine ⟨?_, ?_, ?_, ?_, ?_, ?_, ?_⟩
    · rw [c.params]; exact k.params
    · rw [c.state, c.efficiency]; exact k.efficiency
    · exact c.answers.trans k.answers
    · rw [c.acks]; exact k.acks
    · rw [c.wake]; exact k.wake
    · rw [c.burst]; exact k.burst
    · rw [c.breaks]; exact k.breaks
  on := by intro i q; rw [(h.lanes i).state]; exact q
  blocks := by unfold BlocksOk allBlocks; rw [h.rest]; exact id
  roster := by unfold RosterOk; rw [h.rest]; exact id

/-! ## The arbiter -/

theorem chosen_retestIdle (i : LaneIx) (s : State) : Chosen s (retestIdle i s) := by
  unfold retestIdle
  simp only
  split_ifs <;> first
    | exact Chosen.refl s
    | exact chosen_modLane i _ s (laneChosen_free _ _)

theorem laneChosen_cutFrame (n : Nat) (l : Lane) : LaneChosen l (cutFrame n l) := by
  exact laneChosen_free _ _

theorem chosen_cutReception (i : LaneIx) (s : State) : Chosen s (cutReception i s) := chosen_modLane i _ s (laneChosen_cutFrame _ _)

theorem cutReception_answers (i : LaneIx) (s : State) : ((cutReception i s).lane i).answers = (s.lane i).answers := by
  unfold cutReception
  rw [modLane_lane_same]
  rfl

theorem chosen_sendAnswer (i : LaneIx) (a : Answer) (rest : List Answer) (s : State) (h : (s.lane i).answers = a :: rest) :
    Chosen s (sendAnswer i a rest s) := by
  unfold sendAnswer
  refine (chosen_cutReception i s).trans ((chosen_modLane i _ _ ?_).trans (chosen_retestIdle i _))
  have e : ((cutReception i s).lane i).answers = a :: rest := (cutReception_answers i s).trans h
  constructor <;> first | rfl | skip
  rw [e]
  simp

theorem chosen_sendRequest (i : LaneIx) (o : Owner) (x : Exchange) (n : Nat) (f : LaneFrame) (s : State) :
    Chosen s (sendRequest i o x n f s) := by
  unfold sendRequest
  exact (chosen_cutReception i s).trans (chosen_modLane i _ _ (laneChosen_free _ _))

theorem chosen_countSegment (k : SlotIx) (s : State) : Chosen s (modBinding k countSegment s) := by
  unfold modBinding
  split
  · exact Chosen.refl s
  · rename_i b hb
    refine ⟨rfl, fun _ => LaneChosen.refl _, fun j => ?_⟩
    by_cases e : j = k
    · subst e
      rw [setSlot_slot_same]
      unfold SlotChosen Slot.unsent
      rw [hb]
      have e : ∀ x : Binding, ({ countSegment x with segmentsSent := 0 } : Binding) = { x with segmentsSent := 0 } := by
        intro x
        unfold countSegment
        repeat' split
        all_goals rfl
      simp only [Option.map_some, e]
    · rw [setSlot_slot_other _ _ _ _ e]
      exact SlotChosen.refl _

theorem chosen_sendSlot (i : LaneIx) (k : SlotIx) (s : State) : Chosen s (sendSlot i k s) := by
  unfold sendSlot
  split
  · exact Chosen.refl s
  · exact (chosen_sendRequest _ _ _ _ _ _).trans
      ((chosen_modLane i _ _ (laneChosen_free _ _)).trans (chosen_countSegment k _))

theorem chosen_chooseSlot (i : LaneIx) (s : State) : Chosen s (chooseSlot i s) := by
  unfold chooseSlot
  split
  · exact Chosen.refl s
  · exact chosen_sendSlot _ _ _

theorem chosen_chooseRollCall (i : LaneIx) (s : State) : Chosen s (chooseRollCall i s) := by
  unfold chooseRollCall
  split
  · exact chosen_chooseSlot _ _
  · split
    · exact chosen_chooseSlot _ _
    · split_ifs
      · exact (chosen_sendRequest _ _ _ _ _ _).trans (chosen_modLane i _ _ (laneChosen_free _ _))
      · exact chosen_chooseSlot _ _

theorem chosen_choose (i : LaneIx) (s : State) : Chosen s (choose i s) := by
  unfold choose
  simp only
  split
  · split
    · exact chosen_chooseRollCall _ _
    · rename_i a rest hl
      split_ifs
      · exact chosen_sendAnswer i a rest s hl
      · exact chosen_chooseRollCall _ _
  · exact Chosen.refl s

/-- The choice points of a step change only what lanes send and how far slots have sent (R123). -/
theorem chosen_chooseAll (s : State) : Chosen s (chooseAll s) := Chosen.foldl _ (fun t i => chosen_choose i t) _ s

theorem inside_chooseAll (s : State) : Inside s (chooseAll s) := (chosen_chooseAll s).inside

/-! ## What a choice point leaves as it is -/

theorem Chosen.content_eq {s t : State} (h : Chosen s t) : t.content = s.content := by rw [h.rest]
theorem Chosen.pool_eq {s t : State} (h : Chosen s t) : t.pool = s.pool := by rw [h.rest]
theorem Chosen.objects_eq {s t : State} (h : Chosen s t) : t.objects = s.objects := by rw [h.rest]
theorem Chosen.fare_eq {s t : State} (h : Chosen s t) : t.fare = s.fare := by rw [h.rest]
theorem Chosen.block_eq {s t : State} (h : Chosen s t) : t.block = s.block := by rw [h.rest]
theorem Chosen.merge_eq {s t : State} (h : Chosen s t) : t.merge = s.merge := by rw [h.rest]
theorem Chosen.vehicles_eq {s t : State} (h : Chosen s t) : t.vehicles = s.vehicles := by rw [h.rest]
theorem Chosen.validators_eq {s t : State} (h : Chosen s t) : t.validators = s.validators := by rw [h.rest]
theorem Chosen.vehicleFull_eq {s t : State} (h : Chosen s t) : t.vehicleFull = s.vehicleFull := by rw [h.rest]
theorem Chosen.validatorFull_eq {s t : State} (h : Chosen s t) : t.validatorFull = s.validatorFull := by rw [h.rest]
theorem Chosen.silenceApplied_eq {s t : State} (h : Chosen s t) : t.silenceApplied = s.silenceApplied := by rw [h.rest]
theorem Chosen.clock_eq {s t : State} (h : Chosen s t) : t.clock = s.clock := by rw [h.rest]
theorem Chosen.scanner_eq {s t : State} (h : Chosen s t) : t.scanner = s.scanner := by rw [h.rest]
theorem Chosen.dispatchDue_eq {s t : State} (h : Chosen s t) : t.dispatchDue = s.dispatchDue := by rw [h.rest]
theorem Chosen.policy_eq {s t : State} (h : Chosen s t) : t.policy = s.policy := by rw [h.rest]
theorem Chosen.host_eq {s t : State} (h : Chosen s t) : t.host = s.host := by rw [h.rest]
theorem Chosen.resetPin_eq {s t : State} (h : Chosen s t) : t.resetPin = s.resetPin := by rw [h.rest]
theorem Chosen.now_eq {s t : State} (h : Chosen s t) : t.now = s.now := by rw [h.rest]
theorem Chosen.pending_eq {s t : State} (h : Chosen s t) : t.pending = s.pending := by rw [h.rest]

/-- A FREE slot is as it was. -/
theorem Chosen.free_eq {s t : State} (h : Chosen s t) (k : SlotIx) (hk : (s.slot k).binding = none) : t.slot k = s.slot k := by
  have e := h.slots k
  unfold SlotChosen Slot.unsent at e
  generalize hs : s.slot k = a at *
  generalize ht : t.slot k = b at *
  obtain ⟨ab, ae, au⟩ := a
  obtain ⟨bb, be, bu⟩ := b
  simp only at hk
  subst hk
  simp only [Option.map_none, Slot.mk.injEq, Option.map_eq_none_iff] at e
  obtain ⟨e1, e2, e3⟩ := e
  subst e1; subst e2; subst e3; rfl

/-- A bound slot keeps its binding but for the count of segments sent. -/
theorem Chosen.bound_eq {s t : State} (h : Chosen s t) (k : SlotIx) (b : Binding) (hk : (s.slot k).binding = some b) :
    ∃ n, (t.slot k).binding = some { b with segmentsSent := n } := by
  have e : ((t.slot k).unsent).binding = ((s.slot k).unsent).binding := by
    have := h.slots k
    unfold SlotChosen at this
    rw [this]
  simp only [Slot.unsent, hk, Option.map_some, Option.map_eq_some_iff] at e
  obtain ⟨q, hq, e⟩ := e
  refine ⟨q.segmentsSent, ?_⟩
  rw [hq]
  obtain ⟨q1, q2, q3, q4, q5, q6, q7, q8, q9, q10, q11, q12, q13, q14, q15, q16, q17⟩ := q
  obtain ⟨b1, b2, b3, b4, b5, b6, b7, b8, b9, b10, b11, b12, b13, b14, b15, b16, b17⟩ := b
  simp only [Binding.mk.injEq] at e
  simp only [Option.some.injEq, Binding.mk.injEq]
  tauto

/-! ## States of a lane -/

theorem inside_enterStarting (i : LaneIx) (s : State) (h : (s.lane i).state ≠ .off) : Inside s (enterStarting i s) :=
  inside_modLane i _ s (fun k => ⟨k.params, fun _ => k.efficiency h, k.answers, k.acks, k.wake, k.burst, k.breaks⟩) (fun _ => by simp)

theorem inside_leaveQuiet (i : LaneIx) (b : Bool) (s : State) (h : (s.lane i).state ≠ .off) : Inside s (leaveQuiet i b s) := by
  unfold leaveQuiet
  have h1 : Inside s (modLane i (fun l =>
      { l with powerSave := false, quietMaxEnd := none, leftQuiet := some s.now, quietTimer := .stopped, frameWake := false,
               spent := spentAfter l 0, burst := if b then l.params.burstRounds else l.burst,
               arrival := if b && l.params.presence == .edge then false else l.arrival }) s) := by
    refine inside_modLane i _ s (fun k => ⟨k.params, k.efficiency, k.answers, k.acks, k.wake, ?_, k.breaks⟩) id
    cases b
    · exact k.burst
    · exact k.params.burstRounds.2
  exact h1.trans (inside_enterStarting i _ (h1.on i h))

theorem inside_leaveQuietByFrame (i : LaneIx) (s : State) (h : (s.lane i).state ≠ .off) : Inside s (leaveQuietByFrame i s) :=
  (inside_leaveQuiet i false s h).trans
    (inside_modLane_free i _ _ (fun _ => ⟨rfl, rfl, rfl, rfl, rfl, rfl, rfl, rfl⟩))

theorem inside_enterQuiet (i : LaneIx) (n : Nat) (s : State) (h : (s.lane i).state ≠ .off) : Inside s (enterQuiet i n s) :=
  inside_modLane i _ s (fun k => ⟨k.params, fun _ => k.efficiency h, k.answers, k.acks, k.wake, k.burst, k.breaks⟩) (fun _ => by simp)

theorem inside_abandonTransaction (i : LaneIx) (n : Nat) (s : State) : Inside s (abandonTransaction i n s) := by
  refine inside_modLane_free i _ s (fun l => ?_)
  cases l.transaction <;> exact ⟨rfl, rfl, rfl, rfl, rfl, rfl, rfl, rfl⟩

theorem inside_endLaneSlots (i : LaneIx) (c : EndCond) (s : State) : Inside s (endLaneSlots i c s) :=
  inside_endSlotsWhere _ c s

theorem inside_endVehicleSlots (v : Nat) (c : EndCond) (s : State) : Inside s (endVehicleSlots v c s) :=
  inside_endSlotsWhere _ c s

theorem inside_endValidatorSlot (i : Nat) (c : EndCond) (s : State) : Inside s (endValidatorSlot i c s) :=
  inside_endSlotsWhere _ c s

theorem inside_enterResetting (i : LaneIx) (n : Nat) (s : State) (h : (s.lane i).state ≠ .off) :
    Inside s (enterResetting i n s) := by
  have h1 := (inside_abandonTransaction i n s).trans (inside_endLaneSlots i .laneReset (abandonTransaction i n s))
  have h2 := h1.on i h
  refine h1.trans ?_
  unfold enterResetting
  generalize endLaneSlots i .laneReset (abandonTransaction i n s) = t at h2
  refine inside_modLane i _ t (fun k => ⟨k.params, fun _ => k.efficiency h2, ?_, k.acks, k.wake, ?_, k.breaks⟩) (fun _ => ?_)
  · exact Nat.zero_le _
  · exact Nat.zero_le _
  · simp

theorem inside_setArrival (i : LaneIx) (s : State) : Inside s (setArrival i s) := by
  unfold setArrival
  have h1 : Inside s (modLane i (fun l => { l with arrival := true }) s) :=
    inside_modLane_free i _ s (fun _ => ⟨rfl, rfl, rfl, rfl, rfl, rfl, rfl, rfl⟩)
  simp only
  split_ifs with h
  · refine h1.trans (inside_leaveQuiet i true _ (h1.on i ?_))
    rw [h]
    decide
  · exact h1.trans (inside_retestIdle i _)

theorem inside_clearArrival (i : LaneIx) (s : State) : Inside s (clearArrival i s) := by
  unfold clearArrival
  refine Inside.trans ?_ (inside_retestIdle i _)
  exact inside_modLane_free i _ s (fun _ => ⟨rfl, rfl, rfl, rfl, rfl, rfl, rfl, rfl⟩)

/-! ## The beacon -/

theorem inside_raiseAttempts (s : State) (v : Nat) : Inside s (raiseAttempts s v) := by
  unfold raiseAttempts
  split
  · exact Inside.refl s
  · rename_i r hl
    split_ifs
    · refine Inside.trans ?_ (inside_submit _ _)
      exact Inside.of_roster _ _ _ _ _ _ rfl (fun h => rosterOk_vehicle s v r _ h hl)
    · exact Inside.of_roster _ _ _ _ _ _ rfl (fun h => rosterOk_vehicle s v r _ h hl)

theorem length_wakeList (s : State) (i : LaneIx) : (wakeList s i).length ≤ Config.beaconPlaces := by
  unfold wakeList
  rw [List.length_take]
  exact Nat.min_le_left _ _

theorem inside_beginRound (i : LaneIx) (s : State) (h : (s.lane i).state ≠ .off) : Inside s (beginRound i s) := by
  unfold beginRound
  simp only
  refine Inside.trans (Inside.trans (inside_modLane i _ s (fun k => ?_) (fun _ => by simp)) (Inside.foldl _ inside_raiseAttempts _ _))
    (inside_retestIdle i _)
  refine ⟨k.params, fun _ => k.efficiency h, k.answers, ?_, ?_, k.burst, k.breaks⟩
  · show ((s.lane i).acks.drop Config.beaconPlaces).length ≤ _
    have := k.acks
    rw [List.length_drop]
    omega
  · show ((wakeList s i).map _).length ≤ _
    rw [List.length_map]
    exact length_wakeList s i

end Sys2Proof.Machine
end

