-- ==== Sys2Proof/Laws/Roster.lean ====
section
/-! SUPPORT. What the operations of the roster and of the dispatcher leave as it is (Safety.lean, Inside). -/

namespace Sys2Proof.Machine

/-! ## Departures -/

theorem inside_missDeparture (n : Nat) (b : List (Nat × Nat × Nat)) (s : State) : Inside s (missDeparture n b s) := by
  unfold missDeparture
  split_ifs
  · exact Inside.refl s
  · exact (Inside.foldl _ (fun t p => inside_modValidator p.1 setMissed t) b s).trans (inside_submit _ _)

/-- A departure works inside the part (R46). -/
theorem inside_depart (v : Nat) (c : DepartCause) (s : State) : Inside s (depart v c s) := by
  unfold depart
  split
  · exact Inside.refl s
  · exact ((inside_endVehicleSlots v .vehicleGone s).trans (inside_modVehicle v _ _)).trans
      ((inside_submit _ _).trans (inside_missDeparture _ _ _))

theorem inside_departLane (i : LaneIx) (s : State) : Inside s (departLane i s) := by
  refine Inside.foldl _ (fun t v => ?_) _ s
  split
  · exact Inside.refl t
  · split_ifs
    · exact inside_depart v .laneOff t
    · exact Inside.refl t

theorem inside_silenceCheck (s : State) (v : Nat) : Inside s (silenceCheck s v) := by
  unfold silenceCheck
  split
  · exact Inside.refl s
  · split_ifs
    · exact inside_depart v .silence s
    · exact Inside.refl s

theorem inside_silenceCheckAll (s : State) : Inside s (silenceCheckAll s) := by
  unfold silenceCheckAll
  split_ifs
  · exact Inside.refl s
  · refine Inside.trans ?_ (Inside.foldl _ inside_silenceCheck _ _)
    exact Inside.of_same

theorem inside_refresh (n : Nat) (s : State) : Inside s (refresh n s) := by
  unfold refresh
  split
  · exact Inside.refl s
  · rename_i v _
    split
    · exact Inside.refl s
    · rename_i r hl
      split
      · exact Inside.of_roster _ _ _ _ _ _ rfl (fun h => rosterOk_vehicle s v r _ h hl)
      · exact Inside.of_roster _ _ _ _ _ _ rfl (fun h => rosterOk_vehicle s v r _ h hl)
      · refine Inside.trans ?_ (inside_submit _ _)
        exact Inside.of_roster _ _ _ _ _ _ rfl (fun h => rosterOk_vehicle s v r _ h hl)

/-! ## Evictions -/

/-- A change of the roster tables after other work inside the part. -/
theorem Inside.with_roster {s t : State} (h : Inside s t) (vs : Table Vehicle) (us : Table Validator) (b c : Bool)
    (hr : RosterOk s → tableWf Config.vehicleEntries 0 vs = true ∧ tableWf Config.validatorEntries 0 us = true) :
    Inside s { t with vehicles := vs, validators := us, vehicleFull := b, validatorFull := c } :=
  { content := h.content, policy := h.policy, clock := h.clock, now := h.now, scanner := h.scanner,
    resetPin := h.resetPin, pending := h.pending, link := h.link, queue := h.queue, lanes := h.lanes, on := h.on,
    blocks := h.blocks, roster := hr }

theorem inside_unattach (s : State) (i : Nat) : Inside s (unattach s i) := inside_modValidator i _ s

theorem inside_evictVehicle (v : Nat) (r : Vehicle) (s : State) : Inside s (evictVehicle v r s) := by
  unfold evictVehicle
  have h : Inside s (r.validators.foldl unattach s) := Inside.foldl unattach inside_unattach r.validators s
  exact h.with_roster _ _ _ _ (fun k => ⟨tableWf_erase _ _ v 0 k.1, (h.roster k).2⟩)

theorem inside_unlist (i : Nat) (v : Option Nat) (s : State) : Inside s (unlist i v s) := by
  unfold unlist
  split
  · exact Inside.refl s
  · exact inside_modVehicle _ _ s

theorem inside_evictValidator (i : Nat) (r : Validator) (s : State) : Inside s (evictValidator i r s) := by
  unfold evictValidator
  have h := inside_unlist i r.vehicle s
  exact h.with_roster _ _ _ _ (fun k => ⟨(h.roster k).1, tableWf_erase _ _ i 0 k.2⟩)

/-- The candidate is an entry of the table. -/
theorem mem_oldestBy {α : Type} (m : α → Nat) (t : Table α) (p : Nat × α) (h : oldestBy m t = some p) : p ∈ t := by
  induction t generalizing p with
  | nil => simp [oldestBy] at h
  | cons q t ih =>
    obtain ⟨i, a⟩ := q
    simp only [oldestBy] at h
    split at h
    · simp only [Option.some.injEq] at h
      simp [h]
    · rename_i j b hj
      split_ifs at h
      · simp only [Option.some.injEq] at h
        simp [h]
      · simp only [Option.some.injEq] at h
        exact List.mem_cons_of_mem _ (ih p (h ▸ hj))

/-- The oldest of the entries that `p` picks is the oldest of those that qualify. -/
theorem oldest_filter {α : Type} (m : α → Nat) (cap from_ : Nat) (t : Table α) (p : Nat × α → Bool) (ok : α → Prop)
    (h : tableWf cap from_ t = true) (hp : ∀ x, p x = true ↔ ok x.2) : Oldest m t ok (oldestBy m (t.filter p)) := by
  have hs := oldestBy_min m (t.filter p) ((keys_lt cap t _ h).sublist List.filter_sublist)
  have hm := fun k a => mem_iff_look cap t k a from_ h
  cases ho : oldestBy m (t.filter p) with
  | none =>
    intro v r hl hk
    have : (v, r) ∈ t.filter p := List.mem_filter.2 ⟨(hm v r).2 hl, (hp (v, r)).2 hk⟩
    rw [hs.1 ho] at this
    cases this
  | some c =>
    obtain ⟨hc, hall⟩ := hs.2 c ho
    obtain ⟨h1, h2⟩ := List.mem_filter.1 hc
    exact ⟨(hm _ _).1 h1, (hp c).1 h2, fun w q hl hk => hall (w, q) (List.mem_filter.2 ⟨(hm w q).2 hl, (hp (w, q)).2 hk⟩)⟩
/-- The numbers of a table in order are below its capacity. -/
theorem lt_of_mem {α : Type} (cap : Nat) (t : Table α) (p : Nat × α) : ∀ from_, tableWf cap from_ t = true → p ∈ t → p.1 < cap := by
  induction t with
  | nil => simp
  | cons q t ih =>
    obtain ⟨i, a⟩ := q
    intro from_ h hp
    simp only [tableWf, Bool.and_eq_true, decide_eq_true_eq] at h
    rcases List.mem_cons.mp hp with e | e
    · rw [e]; exact h.1.2
    · exact ih (i + 1) h.2 e

/-- Room for a vehicle: the number is below 256 (R39, R48). -/
theorem inside_roomForVehicle (s t : State) (v : Nat) (h : roomForVehicle s = some (v, t)) :
    Inside s t ∧ (RosterOk s → v < Config.vehicleEntries) := by
  unfold roomForVehicle at h
  split_ifs at h with c
  · simp only [Option.some.injEq, Prod.mk.injEq] at h
    obtain ⟨rfl, rfl⟩ := h
    exact ⟨Inside.refl s, fun _ => c⟩
  · split at h
    · simp at h
    · rename_i w r hw
      simp only [Option.some.injEq, Prod.mk.injEq] at h
      obtain ⟨rfl, rfl⟩ := h
      refine ⟨inside_evictVehicle w r s, fun k => ?_⟩
      have m := mem_oldestBy _ _ _ hw
      exact lt_of_mem _ _ _ 0 k.1 (List.mem_of_mem_filter m)

/-- Room for a validator: the number is below 1024 (R40, R52). -/
theorem inside_roomForValidator (s t : State) (i : Nat) (h : roomForValidator s = some (i, t)) :
    Inside s t ∧ (RosterOk s → i < Config.validatorEntries) := by
  unfold roomForValidator at h
  split_ifs at h with c
  · simp only [Option.some.injEq, Prod.mk.injEq] at h
    obtain ⟨rfl, rfl⟩ := h
    exact ⟨Inside.refl s, fun _ => c⟩
  · split at h
    · simp at h
    · rename_i w r hw
      simp only [Option.some.injEq, Prod.mk.injEq] at h
      obtain ⟨rfl, rfl⟩ := h
      refine ⟨inside_evictValidator w r s, fun k => ?_⟩
      unfold validatorToEvict at hw
      split at hw
      · rename_i p hp
        simp only [Option.some.injEq] at hw
        exact lt_of_mem _ _ (w, r) 0 k.2 (List.mem_of_mem_filter (mem_oldestBy _ _ _ (hw ▸ hp)))
      · exact lt_of_mem _ _ (w, r) 0 k.2 (List.mem_of_mem_filter (mem_oldestBy _ _ _ hw))

theorem inside_vehicleTableFull (n : Nat) (s : State) : Inside s (vehicleTableFull n s) := by
  unfold vehicleTableFull
  split_ifs
  · exact Inside.refl s
  · refine Inside.trans ?_ (inside_submit _ _)
    exact Inside.of_same

theorem inside_validatorTableFull (n k : Nat) (s : State) : Inside s (validatorTableFull n k s) := by
  unfold validatorTableFull
  split_ifs
  · exact Inside.refl s
  · refine Inside.trans ?_ (inside_submit _ _)
    exact Inside.of_same

/-! ## Announces -/

theorem inside_findOrCreate (a : AnnounceItem) (s t : State) (i : Nat) (h : findOrCreate a s = some (i, t)) : Inside s t := by
  unfold findOrCreate at h
  split at h
  · simp only [Option.some.injEq, Prod.mk.injEq] at h
    rw [← h.2]
    exact Inside.refl s
  · split at h
    · simp at h
    · rename_i j u hj
      simp only [Option.some.injEq, Prod.mk.injEq] at h
      rw [← h.2]
      obtain ⟨h1, h2⟩ := inside_roomForValidator s u j hj
      exact h1.with_roster _ _ _ _ (fun k => ⟨(h1.roster k).1, tableWf_put _ _ j _ 0 (Nat.zero_le j) (h2 k) (h1.roster k).2⟩)

theorem inside_moveFrom (v i : Nat) (s : State) : Inside s (moveFrom v i s) := by
  unfold moveFrom
  split
  · exact Inside.refl s
  · split_ifs
    · exact Inside.refl s
    · exact (inside_unlist i _ s).trans (inside_endValidatorSlot i .moved _)

theorem inside_announceOne (v n : Nat) (acc : State × List (Nat × Nat)) (a : AnnounceItem) :
    Inside acc.1 (announceOne v n acc a).1 := by
  unfold announceOne
  split
  · exact inside_validatorTableFull _ _ _
  · rename_i i s1 h
    refine (inside_findOrCreate a acc.1 s1 i h).trans ?_
    refine (inside_moveFrom v i s1).trans ?_
    refine Inside.trans ?_ (inside_submitAll _ _)
    exact (inside_modValidator i _ _).trans (inside_writeHeld i _ _ _)

theorem inside_announceItems (v n : Nat) (items : List AnnounceItem) (acc : State × List (Nat × Nat)) :
    Inside acc.1 (items.foldl (announceOne v n) acc).1 := by
  induction items generalizing acc with
  | nil => exact Inside.refl _
  | cons a items ih => exact (inside_announceOne v n acc a).trans (ih _)

theorem inside_detachAll (ids : List Nat) (s : State) : Inside s (detachAll ids s) :=
  (Inside.foldl unattach inside_unattach ids s).trans (inside_endSlotsWhere _ .moved _)

theorem inside_placeAck (i : LaneIx) (n : Nat) (s : State) : Inside s (placeAck i n s) := by
  refine inside_modLane i _ s (fun k => ?_) (fun h => ?_)
  · split_ifs with c
    · refine ⟨k.params, k.efficiency, k.answers, ?_, k.wake, k.burst, k.breaks⟩
      have := c.2
      simp only [List.length_append, List.length_singleton]
      omega
    · exact k
  · split_ifs <;> exact h

theorem inside_announceRecord (i : LaneIx) (n : Nat) (s t : State) (v : Nat) (b : Option VehicleState)
    (h : announceRecord i n s = some (v, b, t)) : Inside s t := by
  unfold announceRecord at h
  split at h
  · simp only [Option.some.injEq, Prod.mk.injEq] at h
    rw [← h.2.2]
    exact Inside.refl s
  · split at h
    · simp at h
    · rename_i w u hw
      simp only [Option.some.injEq, Prod.mk.injEq] at h
      rw [← h.2.2]
      obtain ⟨h1, h2⟩ := inside_roomForVehicle s u w hw
      exact h1.with_roster _ _ _ _ (fun k => ⟨tableWf_put _ _ w _ 0 (Nat.zero_le w) (h2 k) (h1.roster k).1, (h1.roster k).2⟩)

theorem inside_announceVehicle (i : LaneIx) (b : Bool) (v : Nat) (o : Option VehicleState) (s : State) :
    Inside s (announceVehicle i b v o s) := by
  unfold announceVehicle
  have h1 := inside_modVehicle v (fun r => { r with lastHeard := s.clock.count, wakeAttempts := 0,
                                                    state := if b then .asleep else .present }) s
  generalize modVehicle v _ s = t at h1
  simp only
  have h2 : Inside s (if b = true ∧ o = some .present then endVehicleSlots v .asleep t else t) := by
    split_ifs
    · exact h1.trans (inside_endVehicleSlots v .asleep t)
    · exact h1
  generalize (if b = true ∧ o = some .present then endVehicleSlots v .asleep t else t) = u at h2
  refine h2.trans ?_
  split
  · exact Inside.refl u
  · split_ifs
    · exact Inside.refl u
    · exact (inside_modVehicle v _ u).trans (inside_endVehicleSlots v .moved _)

theorem inside_announceEnd (i : LaneIx) (n : Nat) (b : Bool) (c : Nat) (s : State) : Inside s (announceEnd i n b c s) := by
  unfold announceEnd
  simp only
  split_ifs
  · refine Inside.trans ?_ (inside_submit _ _)
    refine (inside_placeAck i n s).trans ?_
    exact inside_modLane_free i _ _ (fun _ => ⟨rfl, rfl, rfl, rfl, rfl, rfl, rfl, rfl⟩)
  · exact inside_placeAck i n s

/-- An announce works inside the part (R47 to R54). -/
theorem inside_announce (i : LaneIx) (n : Nat) (b : Bool) (items : List AnnounceItem) (s : State) :
    Inside s (announce i n b items s) := by
  unfold announce
  split
  · split
    · exact inside_vehicleTableFull _ _
    · rename_i v o s1 h
      refine (inside_announceRecord i n s s1 v o h).trans ?_
      refine (inside_announceVehicle i b v o s1).trans ?_
      refine (inside_announceItems v n items (announceVehicle i b v o s1, [])).trans ?_
      refine Inside.trans ?_ (inside_dispatchDue true _)
      refine Inside.trans ?_ (inside_announceEnd i n _ _ _)
      refine Inside.trans ?_ (inside_modVehicle v _ _)
      exact inside_detachAll _ _
  · exact Inside.refl s

/-! ## Fleet requests -/

theorem inside_expectKnown (v : Nat) (i : LaneIx) (d : Option Nat) (s : State) : Inside s (expectKnown v i d s) := by
  unfold expectKnown
  split
  · exact Inside.refl s
  · simp only
    split_ifs
    · exact inside_modVehicle v _ s
    · exact (inside_modVehicle v _ s).trans (inside_endVehicleSlots _ _ _)

theorem inside_departKnown (v : Nat) (s : State) : Inside s (departKnown v s) := by
  unfold departKnown
  split
  · exact Inside.refl s
  · split_ifs
    · exact Inside.refl s
    · exact inside_depart v .request s

/-! ## The dispatcher -/

/-- A binding works inside the part (R88). -/
theorem inside_bindSlot (k : SlotIx) (c : Candidate) (s : State) : Inside s (bindSlot k c s) := by
  unfold bindSlot
  refine Inside.trans ?_ (inside_retestIdle _ _)
  have h : ∀ t : State, Inside t (if (t.lane c.vehicle.lane).state = .quiet then leaveQuiet c.vehicle.lane false t else t) := by
    intro t
    split_ifs with q
    · exact inside_leaveQuiet _ _ t (by rw [q]; decide)
    · exact Inside.refl t
  refine Inside.trans ?_ (h _)
  refine Inside.trans ?_ (inside_modVehicle _ _ _)
  refine Inside.trans ?_ (inside_modValidator _ _ _)
  exact (inside_takeRef c.object s).trans (inside_setSlot k _ _)

theorem inside_dispatchWalk (k : SlotIx) (s : State) : Inside s (dispatchWalk k s) := by
  unfold dispatchWalk
  split
  · exact inside_dispatchDue false s
  · refine Inside.trans ?_ (inside_chooseAll _)
    exact (inside_bindSlot k _ s).trans (inside_dispatchDue _ _)

end Sys2Proof.Machine
end

