-- ==== Sys2Proof/Laws/Catalogue.lean ====
section
/-! SUPPORT. What the operations of the catalogue and of the merge engine leave as it is: writes of content (Memory.wf), new objects
(BlocksOk) and the ends and hand-offs that free objects (Safety.lean, Inside). -/

namespace Sys2Proof.Machine

/-! ## Content -/

/-- The address of an object's byte lies inside the 4 MiB (R1). -/
theorem byteAddress_lt (r : ContentObject) (n a : Nat) (h : byteAddress r n = some a) : a < Config.contentBytes := by
  unfold byteAddress at h
  split at h
  · simp at h
  · split_ifs at h with c
    simp only [Option.some.injEq] at h
    simp only [Config.blocks, Config.blockSize, Config.contentBytes] at *
    omega

/-- Bytes written into an object keep the canonical form of content memory. -/
theorem wf_writeObject (r : ContentObject) (bs : List Byte) : ∀ (n : Nat) (m c : Memory), Memory.wf m = true →
    writeObject r n bs m = some c → Memory.wf c = true := by
  induction bs with
  | nil =>
    intro n m c h e
    simp only [writeObject, Option.some.injEq] at e
    rw [← e]
    exact h
  | cons b bs ih =>
    intro n m c h e
    simp only [writeObject] at e
    split at e
    · simp at e
    · rename_i a ha
      exact ih (n + 1) (writeByte m a b) c (wf_writeByte m a b (byteAddress_lt r n a ha) h) e

/-- A byte of content memory that no written byte of the object lies at reads as before. -/
theorem readByte_writeObject_other (r : ContentObject) (bs : List Byte) (x : Nat) : ∀ (n : Nat) (m c : Memory),
    writeObject r n bs m = some c → (∀ j < bs.length, byteAddress r (n + j) ≠ some x) → readByte c x = readByte m x := by
  induction bs with
  | nil =>
    intro n m c e _
    simp only [writeObject, Option.some.injEq] at e
    rw [← e]
  | cons b bs ih =>
    intro n m c e h
    simp only [writeObject] at e
    split at e
    · simp at e
    · rename_i a ha
      have hx : x ≠ a := by
        intro q
        have := h 0 (by simp)
        simp only [Nat.add_zero] at this
        exact this (q ▸ ha)
      rw [ih (n + 1) _ c e (fun j hj => ?_), readByte_writeByte_other m a x b hx]
      have := h (j + 1) (by simp only [List.length_cons]; omega)
      rwa [show n + (j + 1) = n + 1 + j by omega] at this

/-! ## New objects -/

theorem lookUnused_of (s : State) (id : Nat) (hw : tableWf Config.objectEntries 0 s.objects = true)
    (h : unusedObject s = some id) : look s.objects id = none ∧ id < Config.objectEntries := by
  unfold unusedObject at h
  split_ifs at h with c
  simp only [Option.some.injEq] at h
  exact ⟨h ▸ look_lowestUnused _ _ 0 hw, h ▸ c⟩

/-- A new object takes its blocks from the pool and every block stays accounted for (R1, R2). -/
theorem blocksOk_createObject (s : State) (id n : Nat) (mk : List Nat → ContentObject) (h : BlocksOk s)
    (hu : unusedObject s = some id) (hm : ∀ l, (mk l).blocks = l) : BlocksOk (createObject id n mk s) := by
  obtain ⟨hl, hi⟩ := lookUnused_of s id h.1 hu
  refine ⟨tableWf_put _ _ id _ 0 (Nat.zero_le id) hi h.1, ?_⟩
  have h2 := h.2
  rw [allBlocks_eq] at h2 ⊢
  refine List.Perm.trans ?_ h2
  change (s.pool.drop n ++ tableBlocks (put s.objects id (mk (s.pool.take n)))).Perm _
  refine (List.Perm.append_left _ (tableBlocks_put_new s.objects id _ hl)).trans ?_
  rw [hm, ← List.append_assoc]
  refine List.Perm.append_right _ ?_
  conv_rhs => rw [← List.take_append_drop n s.pool]
  exact List.perm_append_comm

/-! ## Ends of a merge -/

theorem inside_merge (m : Option MergeJob) (s : State) : Inside s { s with merge := m } := Inside.of_same

theorem inside_releaseSources (j : MergeJob) (s : State) : Inside s (releaseSources j s) := by
  unfold releaseSources
  refine Inside.trans ?_ (inside_merge none _)
  exact Inside.foldl (fun t o => releaseRef o t) (fun t o => inside_releaseRef o t) j.sources s

theorem inside_retireSources (ids : List Nat) (s : State) : Inside s (retireSources ids s) :=
  Inside.foldl (fun t o => retireIfUnused o t) (fun t o => inside_retireIfUnused o t) ids s

theorem inside_failMerge (j : MergeJob) (r : MergeFailure) (n : Nat) (s : State) : Inside s (failMerge j r n s) := by
  unfold failMerge
  exact ((inside_freeObject j.result s).trans (inside_releaseSources j _)).trans (inside_submit _ _)

theorem inside_settleMerge (j : MergeJob) (n v : Nat) (s : State) : Inside s (settleMerge j n v s) := by
  unfold settleMerge
  split
  · exact inside_failMerge _ _ _ _
  · refine Inside.trans ?_ (inside_submit _ _)
    refine Inside.trans ?_ (inside_releaseSources j _)
    exact inside_modObject _ _ s (fun _ => rfl)

theorem inside_discardMerge (s : State) : Inside s (discardMerge s) := by
  unfold discardMerge
  split
  · exact Inside.refl s
  · exact (inside_failMerge _ _ _ _).trans (inside_retireSources _ _)

/-! ## Publishing -/

theorem inside_setObjectState (o : Nat) (st : ObjState) (s : State) : Inside s (setObjectState o st s) :=
  inside_modObject o _ s (fun _ => rfl)

/-- The hand-off of a publish works inside the part (R18). -/
theorem inside_handOff (f : Option Stream) (a b : List Nat) (s : State) : Inside s (handOff f a b s) := by
  unfold handOff
  refine Inside.trans ?_ (inside_dispatchDue true _)
  refine Inside.trans ?_ (inside_publishRoster f _)
  refine Inside.trans ?_ (Inside.foldl (fun t o => retireIfUnused o t) (fun t o => inside_retireIfUnused o t) _ _)
  exact Inside.foldl (fun t o => retireSlots o t) (fun t o => inside_retireSlots o t) a s

theorem inside_fare (f : Option FareRecord) (s : State) : Inside s { s with fare := f } := Inside.of_same

theorem inside_block (b : Option BlockRecord) (s : State) : Inside s { s with block := b } := Inside.of_same

theorem inside_publishFare (o : Nat) (s : State) : Inside s (publishFare o s) := by
  unfold publishFare
  have h : Inside s { setObjectState o .published s with fare := some ⟨generationOf s o, o⟩ } :=
    (inside_setObjectState o .published s).trans (inside_fare _ _)
  simp only
  split
  · exact h.trans (inside_handOff _ _ _ _)
  · exact (h.trans (inside_setObjectState _ _ _)).trans (inside_handOff _ _ _ _)

theorem inside_publishDelta (o : Nat) (b : BlockRecord) (s : State) : Inside s (publishDelta o b s) := by
  unfold publishDelta
  exact ((inside_setObjectState o .published s).trans (inside_block _ _)).trans (inside_handOff _ _ _ _)

theorem inside_startChain (o : Nat) (s : State) : Inside s (startChain o s) := by
  unfold startChain
  exact ((inside_setObjectState o .published s).trans (inside_block _ _)).trans (inside_handOff _ _ _ _)

theorem inside_freeStale (p : Option (Nat × Nat)) (s : State) : Inside s (freeStale p s) := by
  unfold freeStale
  split
  · exact Inside.refl s
  · exact inside_freeObject _ s

theorem inside_abortReached (g : Nat) (s : State) : Inside s (abortReached g s).1 := by
  unfold abortReached
  split
  · exact Inside.refl s
  · split_ifs
    · exact inside_failMerge _ _ _ _
    · exact Inside.refl s

/-- A rebase works inside the part (R16). -/
theorem inside_rebase (o : Nat) (b : BlockRecord) (s : State) : Inside s (rebase o b s) := by
  unfold rebase
  simp only
  refine Inside.trans ?_ (inside_handOff _ _ _ _)
  refine Inside.trans ?_ (inside_abortReached _ _)
  refine Inside.trans ?_ (inside_freeStale _ _)
  refine Inside.trans ?_ (inside_block _ _)
  refine (inside_setObjectState o .published s).trans ?_
  exact Inside.foldl (fun t d => setObjectState d .retiring t) (fun t d => inside_setObjectState d .retiring t) _ _

end Sys2Proof.Machine
end

