-- ==== Sys2Proof/Laws/Compose.lean ====
section
/-! SUPPORT. What two updates of one record come to, and what the entries to STARTING and QUIET are as one update of their lane: the
provers cite these instead of unfolding one update inside another. -/

namespace Sys2Proof.Machine

/-- Two changes of one lane are one. -/
@[simp] theorem modLane_modLane (i : LaneIx) (f g : Lane → Lane) (s : State) :
    modLane i g (modLane i f s) = modLane i (fun l => g (f l)) s := by
  simp [modLane, State.lane, get_set_same]

/-- A change that leaves the lane as it is changes nothing. -/
theorem modLane_id (i : LaneIx) (f : Lane → Lane) (s : State) (h : f (s.lane i) = s.lane i) : modLane i f s = s := by
  have : s.lanes.set i (s.lane i) = s.lanes := by
    simp [State.lane, Vector.get]
  simp [modLane, h, this]

/-- Changes that agree on the lane agree. -/
theorem modLane_congr (i : LaneIx) (f g : Lane → Lane) (s : State) (h : f (s.lane i) = g (s.lane i)) :
    modLane i f s = modLane i g s := by
  simp [modLane, h]

/-- The second of two replacements of one slot stands. -/
@[simp] theorem setSlot_setSlot (k : SlotIx) (a b : Slot) (s : State) : setSlot k b (setSlot k a s) = setSlot k b s := by
  simp [setSlot]

/-- A slot's own record put back changes nothing. -/
theorem setSlot_self (k : SlotIx) (s : State) : setSlot k (s.slot k) s = s := by
  simp [setSlot, State.slot, Vector.get]

/-- The fields of a bound slot changed. -/
theorem modBinding_bound (k : SlotIx) (f : Binding → Binding) (s : State) (b : Binding) (h : (s.slot k).binding = some b) :
    modBinding k f s = setSlot k { s.slot k with binding := some (f b) } s := by
  simp [modBinding, h]

/-- A FREE slot has no fields to change. -/
theorem modBinding_unbound (k : SlotIx) (f : Binding → Binding) (s : State) (h : (s.slot k).binding = none) :
    modBinding k f s = s := by
  simp [modBinding, h]

/-- Entry to STARTING as one change of the lane (R113). -/
theorem enterStarting_eq (i : LaneIx) (s : State) :
    enterStarting i s = modLane i (fun l => { l with
      state := .starting, phase := .none, reception := none, deadline := s.now + sendMicros l.rate l.params.preamble }) s := rfl

/-- Leaving QUIET as one change of the lane (R132, R134). -/
theorem leaveQuiet_eq (i : LaneIx) (burst : Bool) (s : State) :
    leaveQuiet i burst s = modLane i (fun l => { l with
      state := .starting, phase := .none, reception := none, deadline := s.now + sendMicros l.rate l.params.preamble,
      powerSave := false, quietMaxEnd := none, leftQuiet := some s.now, quietTimer := .stopped, frameWake := false,
      spent := spentAfter l 0,
      burst := if burst then l.params.burstRounds else l.burst,
      arrival := if burst && l.params.presence == .edge then false else l.arrival }) s := by
  simp [leaveQuiet, enterStarting]

end Sys2Proof.Machine
end

