-- ==== Sys2Proof/Laws/Slots.lean ====
section
/-! SUPPORT. What the end of a binding does, once for one slot (endSlot) and once for all slots that are picked (endSlotsWhere): the
provers cite these instead of unfolding the end. -/

namespace Sys2Proof.Machine

/-! ## Work that touches the roster, the objects and the report queue alone -/

/-- `t` is `s` but for validators, objects, pool and the report queue, and vehicles stay the same. -/
structure RosterWork (s t : State) : Prop where
  rest : t = { s with validators := t.validators, objects := t.objects, pool := t.pool, host := t.host }

theorem RosterWork.refl (s : State) : RosterWork s s := ⟨rfl⟩

theorem RosterWork.trans {s t u : State} (h : RosterWork s t) (k : RosterWork t u) : RosterWork s u := by
  constructor
  have h1 := h.rest
  have h2 := k.rest
  rw [h1] at h2
  exact h2

theorem RosterWork.foldl {α : Type} (f : State → α → State) (hf : ∀ t a, RosterWork t (f t a)) (l : List α) (s : State) :
    RosterWork s (l.foldl f s) := by
  induction l generalizing s with
  | nil => exact RosterWork.refl s
  | cons a l ih => exact (hf s a).trans (ih (f s a))

theorem rosterWork_submit (b : ReportBody) (s : State) : RosterWork s (submit b s) := by
  constructor
  unfold submit
  split_ifs <;> rfl

theorem rosterWork_submitAll (bs : List ReportBody) (s : State) : RosterWork s (submitAll bs s) :=
  RosterWork.foldl (fun t b => submit b t) (fun t b => rosterWork_submit b t) bs s

theorem rosterWork_modValidator (i : Nat) (f : Validator → Validator) (s : State) : RosterWork s (modValidator i f s) := by
  constructor
  unfold modValidator
  split <;> rfl

theorem rosterWork_modObject (o : Nat) (f : ContentObject → ContentObject) (s : State) : RosterWork s (modObject o f s) := by
  constructor
  unfold modObject
  split <;> rfl

theorem rosterWork_freeObject (o : Nat) (s : State) : RosterWork s (freeObject o s) := by
  constructor
  unfold freeObject
  split <;> rfl

theorem rosterWork_retireIfUnused (o : Nat) (s : State) : RosterWork s (retireIfUnused o s) := by
  unfold retireIfUnused
  split
  · exact RosterWork.refl s
  · split_ifs
    · exact (rosterWork_freeObject o s).trans (rosterWork_submit _ _)
    · exact RosterWork.refl s

theorem rosterWork_dropRef (o : Nat) (s : State) : RosterWork s (dropRef o s) :=
  (rosterWork_modObject o _ s).trans (rosterWork_retireIfUnused o _)

theorem rosterWork_writeHeld (i : Nat) (f b : Option Nat) (s : State) : RosterWork s (writeHeld i f b s).1 := by
  unfold writeHeld
  split
  · exact RosterWork.refl s
  · constructor; rfl

theorem rosterWork_settleValidator (b : Binding) (c : EndCond) (s : State) : RosterWork s (settleValidator b c s).1 := by
  unfold settleValidator
  repeat' split
  all_goals first
    | exact rosterWork_writeHeld _ _ _ _
    | exact rosterWork_modValidator _ _ _
    | exact RosterWork.refl s

/-! ## The end of one binding -/

/-- A lane with its quiet-delay timer and its frame-wake mark left out, which a test of idleness may change. -/
def Lane.untimed (l : Lane) : Lane := { l with quietTimer := .stopped, frameWake := false }

@[simp] theorem Lane.untimed_state (l : Lane) : l.untimed.state = l.state := rfl
@[simp] theorem Lane.untimed_phase (l : Lane) : l.untimed.phase = l.phase := rfl
@[simp] theorem Lane.untimed_params (l : Lane) : l.untimed.params = l.params := rfl
@[simp] theorem Lane.untimed_efficiency (l : Lane) : l.untimed.efficiency = l.efficiency := rfl
@[simp] theorem Lane.untimed_useful (l : Lane) : l.untimed.useful = l.useful := rfl
@[simp] theorem Lane.untimed_spent (l : Lane) : l.untimed.spent = l.spent := rfl
@[simp] theorem Lane.untimed_roundStart (l : Lane) : l.untimed.roundStart = l.roundStart := rfl
@[simp] theorem Lane.untimed_rate (l : Lane) : l.untimed.rate = l.rate := rfl
@[simp] theorem Lane.untimed_inLength (l : Lane) : l.untimed.inLength = l.inLength := rfl
@[simp] theorem Lane.untimed_inWindow (l : Lane) : l.untimed.inWindow = l.inWindow := rfl
@[simp] theorem Lane.untimed_deadline (l : Lane) : l.untimed.deadline = l.deadline := rfl
@[simp] theorem Lane.untimed_doublingDue (l : Lane) : l.untimed.doublingDue = l.doublingDue := rfl
@[simp] theorem Lane.untimed_windowByArrival (l : Lane) : l.untimed.windowByArrival = l.windowByArrival := rfl
@[simp] theorem Lane.untimed_answers (l : Lane) : l.untimed.answers = l.answers := rfl
@[simp] theorem Lane.untimed_acks (l : Lane) : l.untimed.acks = l.acks := rfl
@[simp] theorem Lane.untimed_wake (l : Lane) : l.untimed.wake = l.wake := rfl
@[simp] theorem Lane.untimed_rollCallMade (l : Lane) : l.untimed.rollCallMade = l.rollCallMade := rfl
@[simp] theorem Lane.untimed_lastServed (l : Lane) : l.untimed.lastServed = l.lastServed := rfl
@[simp] theorem Lane.untimed_transaction (l : Lane) : l.untimed.transaction = l.transaction := rfl
@[simp] theorem Lane.untimed_reception (l : Lane) : l.untimed.reception = l.reception := rfl
@[simp] theorem Lane.untimed_sent (l : Lane) : l.untimed.sent = l.sent := rfl
@[simp] theorem Lane.untimed_arrival (l : Lane) : l.untimed.arrival = l.arrival := rfl
@[simp] theorem Lane.untimed_lineAsserted (l : Lane) : l.untimed.lineAsserted = l.lineAsserted := rfl
@[simp] theorem Lane.untimed_quietMaxEnd (l : Lane) : l.untimed.quietMaxEnd = l.quietMaxEnd := rfl
@[simp] theorem Lane.untimed_leftQuiet (l : Lane) : l.untimed.leftQuiet = l.leftQuiet := rfl
@[simp] theorem Lane.untimed_burst (l : Lane) : l.untimed.burst = l.burst := rfl
@[simp] theorem Lane.untimed_fault (l : Lane) : l.untimed.fault = l.fault := rfl
@[simp] theorem Lane.untimed_breaks (l : Lane) : l.untimed.breaks = l.breaks := rfl
@[simp] theorem Lane.untimed_powerSave (l : Lane) : l.untimed.powerSave = l.powerSave := rfl

/-- Lanes that agree but for the timer and the mark agree in every other field; a record that sets both is the same for both lanes. -/
theorem Lane.timed_eq {a b : Lane} (h : a.untimed = b.untimed) (t : QuietTimer) (w : Bool) :
    { a with quietTimer := t, frameWake := w } = { b with quietTimer := t, frameWake := w } := by
  have e : ∀ l : Lane, { l with quietTimer := t, frameWake := w } = { l.untimed with quietTimer := t, frameWake := w } := fun _ => rfl
  rw [e a, e b, h]

theorem retestIdle_lane_other (i j : LaneIx) (s : State) (h : j ≠ i) : (retestIdle i s).lane j = s.lane j := by
  unfold retestIdle
  simp only
  split_ifs <;> first | rfl | exact modLane_lane_other _ _ _ _ h

theorem retestIdle_lane_untimed (i : LaneIx) (s : State) : ((retestIdle i s).lane i).untimed = (s.lane i).untimed := by
  unfold retestIdle
  simp only
  split_ifs <;> first | rfl | (rw [modLane_lane_same]; rfl)

theorem retestIdle_rest (i : LaneIx) (s : State) : retestIdle i s = { s with lanes := (retestIdle i s).lanes } := by
  unfold retestIdle
  simp only
  split_ifs <;> rfl

/-- What the end of a binding does, apart from validators, objects, pool and reports: the slot is FREE with its last end, the vehicle's
count falls, the lane loses the transaction, and a walk is due (R86, R106, R107). -/
structure SlotEndEffect (s t : State) (k : SlotIx) (c : EndCond) (u : Bool) (b : Binding) : Prop where
  slots : t.slots = s.slots.set k ⟨none, c, u⟩
  vehicles : t.vehicles = (modVehicle b.vehicle (fun v => { v with boundSlots := v.boundSlots - 1 }) s).vehicles
  laneOther : ∀ j, j ≠ b.lane → t.lane j = s.lane j
  lane : (t.lane b.lane).untimed = (orphan k (s.lane b.lane)).untimed
  rest : t = { s with validators := t.validators, objects := t.objects, pool := t.pool, host := t.host, slots := t.slots,
                      vehicles := t.vehicles, lanes := t.lanes, dispatchDue := true }

theorem endSlot_free (k : SlotIx) (c : EndCond) (u : Bool) (s : State) (h : (s.slot k).binding = none) : endSlot k c u s = s := by
  simp [endSlot, h]

theorem endSlot_effect (k : SlotIx) (c : EndCond) (u : Bool) (s : State) (b : Binding) (h : (s.slot k).binding = some b) :
    SlotEndEffect s (endSlot k c u s) k c u b := by
  have h1 := (rosterWork_settleValidator b c s).trans (rosterWork_modValidator b.validator (fun v => { v with boundSlot := none }) _)
  generalize hs1 : modValidator b.validator (fun v => { v with boundSlot := none }) (settleValidator b c s).1 = s1 at h1
  generalize hs2 : modLane b.lane (orphan k) (setSlot k ⟨none, c, u⟩ (modVehicle b.vehicle
    (fun v => { v with boundSlots := v.boundSlots - 1 }) s1)) = s2
  have h3 := ((rosterWork_submit (transferReport k b c u s2) s2).trans
    (rosterWork_submitAll (settleValidator b c s).2 _)).trans (rosterWork_dropRef b.object _)
  generalize hs3 : dropRef b.object (submitAll (settleValidator b c s).2 (submit (transferReport k b c u s2) s2)) = s3 at h3
  have e : endSlot k c u s = retestIdle b.lane { s3 with dispatchDue := true } := by
    simp only [endSlot, h, unbindRoster, hs1, hs2, hs3]
  have hr := retestIdle_rest b.lane { s3 with dispatchDue := true }
  have r1 := h1.rest
  have r3 := h3.rest
  have hv : (modVehicle b.vehicle (fun v => { v with boundSlots := v.boundSlots - 1 }) s1).vehicles =
      (modVehicle b.vehicle (fun v => { v with boundSlots := v.boundSlots - 1 }) s).vehicles := by
    rw [r1]; unfold modVehicle; simp only; split <;> rfl
  have hrest : modVehicle b.vehicle (fun v => { v with boundSlots := v.boundSlots - 1 }) s1 = { s1 with vehicles :=
      (modVehicle b.vehicle (fun v => { v with boundSlots := v.boundSlots - 1 }) s1).vehicles } := by
    unfold modVehicle; split <;> rfl
  have l1 : ∀ j, s1.lane j = s.lane j := fun j => by rw [r1]; rfl
  have l2 : ∀ j, (modVehicle b.vehicle (fun v => { v with boundSlots := v.boundSlots - 1 }) s1).lane j = s.lane j := fun j => by
    rw [hrest]; exact l1 j
  have l3 : ∀ j, s3.lane j = s2.lane j := fun j => by rw [r3]; rfl
  rw [e]
  constructor
  · rw [hr, r3, ← hs2]
    simp only [modLane_slots, setSlot]
    rw [hrest, r1]
  · rw [hr, r3, ← hs2]
    simp only [modLane_vehicles, setSlot]
    exact hv
  · intro j hj
    rw [retestIdle_lane_other _ _ _ hj]
    show s3.lane j = s.lane j
    rw [l3, ← hs2, modLane_lane_other _ _ _ _ hj]
    exact l2 j
  · rw [retestIdle_lane_untimed]
    show (s3.lane b.lane).untimed = _
    rw [l3, ← hs2, modLane_lane_same]
    show (orphan k ((modVehicle b.vehicle (fun v => { v with boundSlots := v.boundSlots - 1 }) s1).lane b.lane)).untimed = _
    rw [l2]
  · rw [hr, r3, ← hs2]
    simp only [modLane, setSlot]
    rw [hrest, r1]

theorem SlotEndEffect.slot_same {s t : State} {k : SlotIx} {c : EndCond} {u : Bool} {b : Binding} (h : SlotEndEffect s t k c u b) :
    t.slot k = ⟨none, c, u⟩ := by
  unfold State.slot; rw [h.slots, get_set_same]

theorem SlotEndEffect.slot_other {s t : State} {k : SlotIx} {c : EndCond} {u : Bool} {b : Binding} (h : SlotEndEffect s t k c u b)
    (j : SlotIx) (hj : j ≠ k) : t.slot j = s.slot j := by
  unfold State.slot; rw [h.slots, get_set_other _ _ _ _ hj]

theorem writeHeld_setSlot (i : Nat) (f g : Option Nat) (k : SlotIx) (r : Slot) (s : State) :
    writeHeld i f g (setSlot k r s) = (setSlot k r (writeHeld i f g s).1, (writeHeld i f g s).2) := by
  simp only [writeHeld, setSlot_validators]
  cases look s.validators i <;> rfl

/-- The end of a binding reads none of its state, step, errors and other running fields, so a change of those just before it is lost. -/
theorem endSlot_setSlot (k : SlotIx) (c : EndCond) (u : Bool) (s : State) (b b' : Binding) (h : (s.slot k).binding = some b)
    (h1 : b'.validator = b.validator) (h2 : b'.object = b.object) (h3 : b'.vehicle = b.vehicle) (h4 : b'.lane = b.lane)
    (h5 : b'.serial = b.serial) (h6 : b'.segmentsSent = b.segmentsSent) (h7 : b'.closeAttempts = b.closeAttempts) :
    endSlot k c u (setSlot k { s.slot k with binding := some b' } s) = endSlot k c u s := by
  have hs : settleValidator b' c (setSlot k { s.slot k with binding := some b' } s) =
      (setSlot k { s.slot k with binding := some b' } (settleValidator b c s).1, (settleValidator b c s).2) := by
    unfold settleValidator
    cases c <;> simp only [h1, h2, setSlot_validators, setSlot_objects]
    case done =>
      cases look s.validators b.validator with
      | none => rfl
      | some v =>
        cases look s.objects b.object with
        | none => rfl
        | some o =>
          cases hk : o.kind <;> simp only [hk, writeHeld_setSlot]
    all_goals
      simp only [modValidator, setSlot_validators]; cases look s.validators b.validator <;> rfl
  have hu : unbindRoster b' (setSlot k { s.slot k with binding := some b' } (settleValidator b c s).1) =
      setSlot k { s.slot k with binding := some b' } (unbindRoster b (settleValidator b c s).1) := by
    generalize (settleValidator b c s).1 = w
    simp only [unbindRoster, modVehicle, modValidator, h1, h3, setSlot_validators]
    cases look w.validators b.validator
    · show (match look w.vehicles b.vehicle with | none => _ | some r => _) = _
      cases look w.vehicles b.vehicle <;> rfl
    · show (match look w.vehicles b.vehicle with | none => _ | some r => _) = _
      cases look w.vehicles b.vehicle <;> rfl
  simp only [endSlot, setSlot_slot_same, h, hs, hu, setSlot_setSlot, transferReport, h1, h2, h3, h4, h5, h6, h7]

/-- The same for a change made through modBinding. -/
theorem endSlot_modBinding (k : SlotIx) (c : EndCond) (u : Bool) (s : State) (b : Binding) (f : Binding → Binding)
    (h : (s.slot k).binding = some b) (h1 : (f b).validator = b.validator) (h2 : (f b).object = b.object)
    (h3 : (f b).vehicle = b.vehicle) (h4 : (f b).lane = b.lane) (h5 : (f b).serial = b.serial)
    (h6 : (f b).segmentsSent = b.segmentsSent) (h7 : (f b).closeAttempts = b.closeAttempts) :
    endSlot k c u (modBinding k f s) = endSlot k c u s := by
  rw [modBinding_bound k f s b h]
  exact endSlot_setSlot k c u s b (f b) h h1 h2 h3 h4 h5 h6 h7

/-! ## The end of every binding that is picked -/

theorem SameVehicles.refl (s : State) : SameVehicles s s := fun _ => ⟨fun r h => ⟨r.boundSlots, h⟩, id⟩

theorem SameVehicles.trans {s t u : State} (h : SameVehicles s t) (k : SameVehicles t u) : SameVehicles s u := fun v => by
  refine ⟨fun r hr => ?_, fun hn => (k v).2 ((h v).2 hn)⟩
  obtain ⟨n, hn⟩ := (h v).1 r hr
  obtain ⟨m, hm⟩ := (k v).1 _ hn
  exact ⟨m, hm⟩

theorem sameVehicles_of_eq {s t : State} (h : t.vehicles = s.vehicles) : SameVehicles s t := fun v => by
  rw [h]; exact ⟨fun r hr => ⟨r.boundSlots, hr⟩, id⟩

theorem SlotEndEffect.sameVehicles {s t : State} {k : SlotIx} {c : EndCond} {u : Bool} {b : Binding}
    (h : SlotEndEffect s t k c u b) : SameVehicles s t := fun v => by
  rw [h.vehicles]
  unfold modVehicle
  split
  · exact ⟨fun r hr => ⟨r.boundSlots, hr⟩, id⟩
  · rename_i q hq
    by_cases e : v = b.vehicle
    · subst e
      refine ⟨fun r hr => ?_, fun hn => ?_⟩
      · rw [hq] at hr; cases hr; exact ⟨_, look_put_same _ _ _⟩
      · rw [hq] at hn; cases hn
    · simp only [look_put_other _ _ _ _ e]
      exact ⟨fun r hr => ⟨r.boundSlots, hr⟩, id⟩

/-- What ending slots one after another leaves: the slots are as before or FREE with the condition, the vehicles are the same but for
their counts, and a lane on which no slot ended is as it was. -/
structure SlotsEndEffect (which : Binding → Prop) (c : EndCond) (s t : State) : Prop where
  slots : ∀ k, t.slot k = s.slot k ∨ (t.slot k = ⟨none, c, false⟩ ∧ ∃ b, (s.slot k).binding = some b ∧ which b)
  vehicles : SameVehicles s t
  laneOther : ∀ j, (∀ k b, (s.slot k).binding = some b → which b → b.lane ≠ j) → t.lane j = s.lane j
  rest : t = { s with validators := t.validators, objects := t.objects, pool := t.pool, host := t.host, slots := t.slots,
                      vehicles := t.vehicles, lanes := t.lanes, dispatchDue := t.dispatchDue }

theorem SlotsEndEffect.refl (which : Binding → Prop) (c : EndCond) (s : State) : SlotsEndEffect which c s s :=
  ⟨fun _ => Or.inl rfl, SameVehicles.refl s, fun _ _ => rfl, rfl⟩

theorem SlotsEndEffect.trans {which : Binding → Prop} {c : EndCond} {s t u : State} (h : SlotsEndEffect which c s t)
    (k : SlotsEndEffect which c t u) : SlotsEndEffect which c s u where
  slots j := by
    rcases h.slots j with e | ⟨e, he⟩
    · rw [← e]; exact k.slots j
    · rcases k.slots j with e' | ⟨_, b, hb, _⟩
      · exact Or.inr ⟨e'.trans e, he⟩
      · rw [e] at hb; cases hb
  vehicles := h.vehicles.trans k.vehicles
  laneOther j hj := by
    refine (k.laneOther j (fun i b hb hw => ?_)).trans (h.laneOther j hj)
    rcases h.slots i with e | ⟨e, _⟩
    · rw [e] at hb; exact hj i b hb hw
    · rw [e] at hb; cases hb
  rest := by
    have h1 := h.rest
    have h2 := k.rest
    rw [h1] at h2
    exact h2

/-- One turn of endSlotsWhere. -/
def endIf (which : Binding → Bool) (c : EndCond) (s : State) (k : SlotIx) : State :=
  match (s.slot k).binding with
  | none => s
  | some b => if which b then endSlot k c false s else s

theorem endSlotsWhere_eq (which : Binding → Bool) (c : EndCond) (s : State) :
    endSlotsWhere which c s = allSlots.foldl (endIf which c) s := rfl

theorem endIf_effect (which : Binding → Bool) (c : EndCond) (s : State) (k : SlotIx) :
    SlotsEndEffect (fun b => which b = true) c s (endIf which c s k) ∧
      (∀ b, ((endIf which c s k).slot k).binding = some b → which b = false) := by
  unfold endIf
  split
  · rename_i h; exact ⟨SlotsEndEffect.refl _ c s, fun b hb => by rw [h] at hb; cases hb⟩
  · rename_i b hb
    split_ifs with hw
    · have e := endSlot_effect k c false s b hb
      refine ⟨⟨fun j => ?_, e.sameVehicles, fun j hj => e.laneOther j (Ne.symm (hj k b hb hw)), ?_⟩, fun q hq => ?_⟩
      · by_cases hj : j = k
        · subst hj; exact Or.inr ⟨e.slot_same, b, hb, hw⟩
        · exact Or.inl (e.slot_other j hj)
      · have := e.rest
        have hd : (endSlot k c false s).dispatchDue = true := by rw [this]
        rw [hd]; exact this
      · rw [e.slot_same] at hq; cases hq
    · refine ⟨SlotsEndEffect.refl _ c s, fun q hq => ?_⟩
      rw [hb] at hq; cases hq; simpa using hw

theorem endIf_foldl_effect (which : Binding → Bool) (c : EndCond) (l : List SlotIx) (s : State) :
    SlotsEndEffect (fun b => which b = true) c s (l.foldl (endIf which c) s) ∧
      (∀ k ∈ l, ∀ b, ((l.foldl (endIf which c) s).slot k).binding = some b → which b = false) := by
  induction l generalizing s with
  | nil => exact ⟨SlotsEndEffect.refl _ c s, fun k h => by cases h⟩
  | cons a l ih =>
    obtain ⟨h1, h2⟩ := endIf_effect which c s a
    obtain ⟨h3, h4⟩ := ih (endIf which c s a)
    refine ⟨h1.trans h3, fun k hk b hb => ?_⟩
    rcases List.mem_cons.1 hk with rfl | hk
    · rcases h3.slots k with e | ⟨e, _⟩
      · rw [List.foldl_cons, e] at hb; exact h2 b hb
      · rw [List.foldl_cons, e] at hb; cases hb
    · exact h4 k hk b hb

theorem mem_allSlots (k : SlotIx) : k ∈ allSlots := by fin_cases k <;> simp [allSlots]

theorem endSlotsWhere_effect (which : Binding → Bool) (c : EndCond) (s : State) :
    SlotsEndEffect (fun b => which b = true) c s (endSlotsWhere which c s) := (endIf_foldl_effect which c allSlots s).1

/-- Exactly the slots that are picked end (R105, R107). -/
theorem slotsEnded_endSlotsWhere (which : Binding → Bool) (c : EndCond) (s : State) :
    SlotsEnded (fun b => which b = true) c s (endSlotsWhere which c s) := fun k => by
  have h1 := (endSlotsWhere_effect which c s).slots k
  have h2 := (endIf_foldl_effect which c allSlots s).2 k (mem_allSlots k)
  refine ⟨fun b hb hw => ?_, fun h => ?_⟩
  · rcases h1 with e | ⟨e, _⟩
    · have := h2 b (by rw [← hb, ← e]; rfl)
      simp only [this] at hw; cases hw
    · exact e
  · rcases h1 with e | ⟨_, b, hb, hw⟩
    · exact e
    · exact absurd hw (h b hb)

/-- A lane without a transaction in flight keeps all but its timer and mark when slots end. -/
theorem endSlotsWhere_lane (which : Binding → Bool) (c : EndCond) (s : State) (i : LaneIx) (h : (s.lane i).transaction = none) :
    ((endSlotsWhere which c s).lane i).untimed = (s.lane i).untimed := by
  rw [endSlotsWhere_eq]
  generalize allSlots = l
  induction l generalizing s with
  | nil => rfl
  | cons a l ih =>
    have e : ((endIf which c s a).lane i).untimed = (s.lane i).untimed := by
      unfold endIf
      split
      · rfl
      · rename_i b hb
        split_ifs
        · have e := endSlot_effect a c false s b hb
          by_cases hi : i = b.lane
          · subst hi
            have ho : orphan a (s.lane b.lane) = s.lane b.lane := by simp [orphan, h]
            rw [e.lane, ho]
          · rw [e.laneOther i hi]
        · rfl
    have ht : ((endIf which c s a).lane i).transaction = none := by
      rw [← Lane.untimed_transaction, e, Lane.untimed_transaction, h]
    rw [List.foldl_cons, ih _ ht, e]

/-- Without a slot that is picked nothing ends. -/
theorem endSlotsWhere_none (which : Binding → Bool) (c : EndCond) (s : State)
    (h : ∀ k b, (s.slot k).binding = some b → which b = false) : endSlotsWhere which c s = s := by
  rw [endSlotsWhere_eq]
  have : ∀ l : List SlotIx, l.foldl (endIf which c) s = s := by
    intro l
    induction l with
    | nil => rfl
    | cons a l ih =>
      have e : endIf which c s a = s := by
        unfold endIf
        split
        · rfl
        · rename_i b hb; simp [h a b hb]
      rw [List.foldl_cons, e, ih]
  exact this allSlots

end Sys2Proof.Machine
end

