-- ==== Sys2Proof/Laws/Gating.lean ====
section
/-! SUPPORT. What the entry to RESETTING does, once for RESET_LANE and for a received break. -/

namespace Sys2Proof.Machine

/-- The lane record of RESETTING at a moment. -/
def resettingLane (now : Time) (l : Lane) : Lane :=
  { l with state := .resetting, phase := .none, answers := [], quietTimer := .stopped, frameWake := false, burst := 0,
           quietMaxEnd := none, leftQuiet := none, powerSave := false, reception := none, deadline := now + bitMicros l.rate 20 }

theorem resettingLane_untimed (now : Time) (l : Lane) : resettingLane now l = resettingLane now l.untimed := rfl

theorem resettingLane_spent (now : Time) (l : Lane) : (resettingLane now l).spent = l.spent := rfl

theorem spent_of_untimed {a b : Lane} (h : a.untimed = b.untimed) : a.spent = b.spent := by
  show a.untimed.spent = b.untimed.spent
  rw [h]

/-- The state with its lanes replaced. -/
def State.withLanes (s : State) (ls : Vector Lane 6) : State := { s with lanes := ls }

theorem modLane_withLanes (i : LaneIx) (f : Lane → Lane) (s : State) : modLane i f s = s.withLanes (modLane i f s).lanes := rfl

/-- An abandoned transaction leaves of the lane all but the transaction, the frame in progress and the spent count (R126, R138). -/
theorem abandonTransaction_eq (i : LaneIx) (n : Nat) (s : State) : abandonTransaction i n s = { s with
    lanes := s.lanes.set i { s.lane i with
      transaction := none, reception := none, spent := ((abandonTransaction i n s).lane i).spent } } := by
  unfold abandonTransaction
  rw [modLane_lane_same]
  unfold modLane
  generalize s.lane i = l
  cases ht : l.transaction
  · cases l
    cases ht
    rfl
  · simp only [ht]

/-- Entry to RESETTING, on a lane that is switched on (R138). -/
theorem entered_enterResetting (i : LaneIx) (n : Nat) (s : State) (h : (s.lane i).state ≠ .off) :
    EnteredResetting n s (enterResetting i n s) i := by
  have hrest : abandonTransaction i n s = { s with lanes := (abandonTransaction i n s).lanes } := rfl
  have ht : ((abandonTransaction i n s).lane i).transaction = none := by
    unfold abandonTransaction
    rw [modLane_lane_same]
    cases (s.lane i).transaction <;> simp
  have hk := endSlotsWhere_lane (fun b => b.lane == i) .laneReset (abandonTransaction i n s) i ht
  have hf := endSlotsWhere_effect (fun b => b.lane == i) .laneReset (abandonTransaction i n s)
  have he := slotsEnded_endSlotsWhere (fun b => b.lane == i) .laneReset (abandonTransaction i n s)
  have hdef : enterResetting i n s = modLane i (resettingLane s.now)
      (endSlotsWhere (fun b => b.lane == i) .laneReset (abandonTransaction i n s)) := rfl
  constructor
  · rw [hdef, modLane_lane_same, resettingLane_untimed, hk, ← resettingLane_untimed]
    simp only [resettingLane, abandonTransaction, modLane_lane_same]
    cases (s.lane i).transaction <;> simp only [bitMicros]
  · intro j hj
    rw [hdef, modLane_lane_other _ _ _ _ hj,
      hf.laneOther j (fun k b hb hw => by simp at hw; rw [hw]; exact hj.symm)]
    exact modLane_lane_other _ _ _ _ hj
  · have hsp : ((enterResetting i n s).lane i).spent = ((abandonTransaction i n s).lane i).spent := by
      rw [hdef, modLane_lane_same, resettingLane_spent]
      exact spent_of_untimed hk
    have ha := abandonTransaction_eq i n s
    rw [← hsp] at ha
    have hg : enterResetting i n s = (endLaneSlots i .laneReset (abandonTransaction i n s)).withLanes (enterResetting i n s).lanes := by
      rw [hdef]; exact modLane_withLanes _ _ _
    exact hg.trans (congrArg (fun a : State => (endLaneSlots i .laneReset a).withLanes (enterResetting i n s).lanes) ha)
  · intro k
    have := he k
    rw [hdef, modLane_slot]
    exact ⟨fun b hb hw => this.1 b hb (by simpa using hw), fun h => this.2 (fun b hb => by simpa using h b hb)⟩
  · intro v
    have := hf.vehicles v
    rw [hrest] at this
    rw [hdef, modLane_vehicles, hrest]
    exact this
  · exact inside_enterResetting i n s h

end Sys2Proof.Machine
end

