-- ==== Sys2Proof/Laws/Publish.lean ====
section
/-! SUPPORT. What a publish does to the slots and lanes: the retirement of objects, once for one slot (retireSlot) and once for the whole
hand-off (handOff), and each of the four publishes in its terms; and what it does to the objects. -/

namespace Sys2Proof.Machine

/-! ## The retirement of objects -/

theorem SlotsTold.none (takes : SlotIx → Binding → Prop) (h : ∀ k b, ¬takes k b) (s : State) : SlotsTold takes s s :=
  ⟨fun k b _ ht => absurd ht (h k b), fun _ _ => rfl, fun _ _ k _ b _ _ _ _ ht => absurd ht (h k b), fun _ _ => rfl⟩

theorem SlotsTold.of_same {takes : SlotIx → Binding → Prop} {s w t : State} (h : SlotsTold takes s w) (h1 : t.slots = w.slots)
    (h2 : t.lanes = w.lanes) : SlotsTold takes s t := by
  have e1 : ∀ k, t.slot k = w.slot k := fun k => by simp only [State.slot, h1]
  have e2 : ∀ i, t.lane i = w.lane i := fun i => by simp only [State.lane, h2]
  exact ⟨fun k b hb ht => (e1 k).trans (h.abandoned k b hb ht), fun k hk => (e1 k).trans (h.kept k hk),
    fun i tr k c b h3 h4 h5 h6 h7 => (e2 i).trans (h.inFlight i tr k c b h3 h4 h5 h6 h7), fun i hi => (e2 i).trans (h.lanes i hi)⟩

theorem SlotsTold.from_same {takes : SlotIx → Binding → Prop} {s u w : State} (h : SlotsTold takes u w) (h1 : u.slots = s.slots)
    (h2 : u.lanes = s.lanes) : SlotsTold takes s w := by
  have e1 : ∀ k, u.slot k = s.slot k := fun k => by simp only [State.slot, h1]
  have e2 : ∀ i, u.lane i = s.lane i := fun i => by simp only [State.lane, h2]
  constructor
  · intro k b hb ht; rw [← e1]; exact h.abandoned k b (by rw [e1]; exact hb) ht
  · intro k hk; rw [← e1]; exact h.kept k (by rw [e1]; exact hk)
  · intro i tr k c b h3 h4 h5 h6 h7; rw [← e2]; exact h.inFlight i tr k c b (by rw [e2]; exact h3) h4 (by rw [e1]; exact h5) h6 h7
  · intro i hi; rw [← e2]; exact h.lanes i (fun tr k c b h3 h4 h5 => hi tr k c b (by rw [← e2]; exact h3) h4 (by rw [← e1]; exact h5))

theorem SlotsTold.congr {takes picks : SlotIx → Binding → Prop} {s w : State} (h : SlotsTold takes s w)
    (e : ∀ k b, (s.slot k).binding = some b → (takes k b ↔ picks k b)) : SlotsTold picks s w :=
  ⟨fun k b hb ht => h.abandoned k b hb ((e k b hb).2 ht), fun k hk => h.kept k (fun b hb ht => hk b hb ((e k b hb).1 ht)),
    fun i tr k c b h3 h4 h5 h6 h7 => h.inFlight i tr k c b h3 h4 h5 h6 ((e k b h5).2 h7),
    fun i hi => h.lanes i (fun tr k c b h3 h4 h5 h6 h7 => hi tr k c b h3 h4 h5 h6 ((e k b h5).1 h7))⟩

/-- The bindings at step OPEN or SEG of whose object `P` says that their slot has been told. -/
def ToldOf (P : Nat → SlotIx → Prop) (k : SlotIx) (b : Binding) : Prop := P b.object k ∧ b.step ≠ .close ∧ b.step ≠ .abandon

/-- The lane's transaction of another slot, or of none, is not touched by the retirement at a slot. -/
theorem markCountOnly_other (k : SlotIx) (l : Lane) (h : ∀ tr c, l.transaction = some tr → tr.owner ≠ .slot k c) :
    markCountOnly k l = l := by
  unfold markCountOnly
  split
  · rfl
  · rename_i tr ht
    split
    · rename_i k' c ho
      by_cases hk : k' = k
      · exact absurd ho (hk ▸ h tr c ht)
      · rw [if_neg hk]
    all_goals rfl

/-- The lane's transaction of a slot acts on the error count alone once the slot's object is retired. -/
theorem markCountOnly_own (k : SlotIx) (l : Lane) (tr : Transaction) (c : Bool) (h : l.transaction = some tr) (ho : tr.owner = .slot k c) :
    markCountOnly k l = { l with transaction := some { tr with owner := .slot k true } } := by
  simp [markCountOnly, h, ho]

/-- A slot's fields once its object is retired at step OPEN or SEG (R103). -/
theorem abandonBinding_open (b : Binding) (h1 : b.step ≠ .close) (h2 : b.step ≠ .abandon) : abandonBinding b = { b with
    step := .abandon, state := if b.state = .probe then .probe else .send, pendings := 0, superseded := true } := by
  unfold abandonBinding
  split <;> first | rfl | (exact absurd ‹_› h1) | (exact absurd ‹_› h2)

/-- One slot more is told of one object (R103). -/
theorem slotsTold_retireSlot (P : Nat → SlotIx → Prop) (s w : State) (h : SlotsTold (ToldOf P) s w) (o : Nat) (k : SlotIx) :
    SlotsTold (ToldOf (fun o' k' => P o' k' ∨ (o' = o ∧ k' = k))) s (retireSlot o w k) := by
  have same : (∀ b, (s.slot k).binding = some b → b.object = o → b.step ≠ .close → b.step ≠ .abandon → P b.object k) →
      retireSlot o w k = w → SlotsTold (ToldOf (fun o' k' => P o' k' ∨ (o' = o ∧ k' = k))) s (retireSlot o w k) := by
    intro h1 h2
    rw [h2]
    refine h.congr (fun k' b hb => ⟨fun ht => ⟨Or.inl ht.1, ht.2⟩, fun ht => ⟨?_, ht.2⟩⟩)
    rcases ht.1 with h3 | ⟨h3, h4⟩
    · exact h3
    · exact h4 ▸ h1 b (h4 ▸ hb) h3 ht.2.1 ht.2.2
  cases hb : (s.slot k).binding with
  | none =>
    refine same (fun b h1 => ?_) ?_
    · rw [hb] at h1; cases h1
    · have : (w.slot k).binding = none := by rw [h.kept k (fun b h1 => by rw [hb] at h1; cases h1)]; exact hb
      simp only [retireSlot, this]
  | some b =>
    by_cases ht : ToldOf P k b
    · refine same (fun b' h1 _ _ _ => ?_) ?_
      · rw [hb] at h1; cases h1; exact ht.1
      · simp [retireSlot, h.abandoned k b hb ht]
    · have hw : w.slot k = s.slot k := h.kept k (fun b' h1 => by rw [hb] at h1; cases h1; exact ht)
      by_cases ha : b.object = o ∧ b.step ≠ .close ∧ b.step ≠ .abandon
      · have hp : ¬P b.object k := fun hp => ht ⟨hp, ha.2⟩
        have hbw : (w.slot k).binding = some b := by rw [hw]; exact hb
        have e : retireSlot o w k = modLane b.lane (markCountOnly k) (setSlot k { w.slot k with binding := some (abandonBinding b) } w) := by
          simp only [retireSlot, hbw, if_pos ha, modBinding_bound k abandonBinding w b hbw]
        have es : ∀ k', (retireSlot o w k).slot k' = if k' = k then { s.slot k with binding := some (abandonBinding b) } else w.slot k' := by
          intro k'
          rw [e, modLane_slot]
          by_cases hk : k' = k
          · subst hk; simp [hw]
          · simp [hk, setSlot_slot_other _ _ _ _ hk]
        have el : ∀ i, (retireSlot o w k).lane i = if i = b.lane then markCountOnly k (w.lane i) else w.lane i := by
          intro i; rw [e, modLane_lane]; rfl
        have iff_ : ∀ k' b', (s.slot k').binding = some b' → k' ≠ k →
            (ToldOf (fun o' k' => P o' k' ∨ (o' = o ∧ k' = k)) k' b' ↔ ToldOf P k' b') := by
          intro k' b' _ hk
          simp [ToldOf, hk]
        have own : ∀ b', (s.slot k).binding = some b' → b' = b := by intro b' h1; rw [hb] at h1; exact (Option.some.inj h1).symm
        have now : ToldOf (fun o' k' => P o' k' ∨ (o' = o ∧ k' = k)) k b := ⟨Or.inr ⟨ha.1, rfl⟩, ha.2⟩
        constructor
        · intro k' b' h1 h2
          rw [es]
          by_cases hk : k' = k
          · subst hk
            rw [own b' h1, if_pos rfl, abandonBinding_open b ha.2.1 ha.2.2]
          · rw [if_neg hk]; exact h.abandoned k' b' h1 ((iff_ k' b' h1 hk).1 h2)
        · intro k' h1
          rw [es]
          by_cases hk : k' = k
          · subst hk; exact absurd now (h1 b hb)
          · rw [if_neg hk]; exact h.kept k' (fun b' h2 h3 => h1 b' h2 ((iff_ k' b' h2 hk).2 h3))
        · intro i tr k' c b' h1 h2 h3 h4 h5
          rw [el]
          by_cases hk : k' = k
          · subst hk
            have hbb := own b' h3
            subst hbb
            rw [if_pos h4.symm, h.lanes i (fun tr2 k2 c2 b2 g1 g2 g3 _ g5 => ?_)]
            · exact markCountOnly_own _ _ tr c h1 h2
            · rw [h1] at g1; cases g1; rw [h2] at g2; cases g2; rw [own b2 g3] at g5; exact ht g5
          · have hw2 := h.inFlight i tr k' c b' h1 h2 h3 h4 ((iff_ k' b' h3 hk).1 h5)
            split_ifs
            · rw [hw2]
              exact markCountOnly_other _ _ (fun tr2 c2 g1 g2 => by cases g1; cases g2; exact hk rfl)
            · exact hw2
        · intro i h1
          rw [el]
          have hw2 : w.lane i = s.lane i := h.lanes i (fun tr k' c b' g1 g2 g3 g4 g5 => h1 tr k' c b' g1 g2 g3 g4 ⟨Or.inl g5.1, g5.2⟩)
          rw [hw2]
          split_ifs with hi
          · exact markCountOnly_other _ _ (fun tr c g1 g2 => h1 tr k c b g1 g2 hb hi.symm now)
          · rfl
      · refine same (fun b' h1 h2 h3 h4 => ?_) ?_
        · rw [hb] at h1; cases h1; exact absurd ⟨h2, h3, h4⟩ ha
        · have hbw : (w.slot k).binding = some b := by rw [hw]; exact hb
          simp only [retireSlot, hbw, if_neg ha]

/-- The slots of a list are told of one object. -/
theorem slotsTold_slots (o : Nat) (ks : List SlotIx) : ∀ (P : Nat → SlotIx → Prop) (s w : State), SlotsTold (ToldOf P) s w →
    SlotsTold (ToldOf (fun o' k' => P o' k' ∨ (o' = o ∧ k' ∈ ks))) s (ks.foldl (retireSlot o) w) := by
  induction ks with
  | nil => intro P s w h; exact h.congr (fun k b _ => by simp [ToldOf])
  | cons k ks ih =>
    intro P s w h
    refine (ih _ s _ (slotsTold_retireSlot P s w h o k)).congr (fun k' b _ => ?_)
    simp only [ToldOf, List.mem_cons]
    constructor <;> rintro ⟨h1, h2⟩ <;> refine ⟨?_, h2⟩ <;> grind

/-- Every slot is told of every retired object (R18, R103). -/
theorem slotsTold_retireSlots (os : List Nat) : ∀ (P : Nat → SlotIx → Prop) (s w : State), SlotsTold (ToldOf P) s w →
    SlotsTold (ToldOf (fun o' k' => P o' k' ∨ o' ∈ os)) s (os.foldl (fun t o => retireSlots o t) w) := by
  induction os with
  | nil => intro P s w h; exact h.congr (fun k b _ => by simp [ToldOf])
  | cons o os ih =>
    intro P s w h
    have h1 := slotsTold_slots o allSlots P s w h
    rw [← retireSlots] at h1
    rw [List.foldl_cons]
    refine (ih _ s _ h1).congr (fun k' b _ => ?_)
    simp only [ToldOf, List.mem_cons, mem_allSlots]
    constructor <;> rintro ⟨h1, h2⟩ <;> refine ⟨?_, h2⟩ <;> grind

/-- The retirement of a list of objects, from a state in which nothing has been told. -/
theorem slotsTold_retired (os : List Nat) (s : State) : SlotsTold (Retires os) s (os.foldl (fun t o => retireSlots o t) s) :=
  (slotsTold_retireSlots os (fun _ _ => False) s s (SlotsTold.none _ (fun _ _ h => h.1) s)).congr
    (fun k b _ => by simp [ToldOf, Retires])

/-! ## The publishes (R14 to R18) -/

theorem rosterWork_publishValidator (f : Option Stream) (s : State) (i : Nat) : RosterWork s (publishValidator f s i) := by
  unfold publishValidator
  split
  · exact RosterWork.refl s
  · simp only
    refine RosterWork.trans ?_ (rosterWork_submitAll _ _)
    exact ⟨rfl⟩

theorem RosterWork.slots {s t : State} (h : RosterWork s t) : t.slots = s.slots := by rw [h.rest]

theorem RosterWork.lanes {s t : State} (h : RosterWork s t) : t.lanes = s.lanes := by rw [h.rest]

/-- The hand-off tells the transfer unit of the retired objects and leaves slots and lanes else as they are. -/
theorem slotsTold_handOff (f : Option Stream) (retired released : List Nat) (s : State) :
    SlotsTold (Retires retired) s (handOff f retired released s) := by
  have h := slotsTold_retired retired s
  unfold handOff
  simp only
  generalize retired.foldl (fun t o => retireSlots o t) s = s1 at h
  have h2 : RosterWork s1 ((retired ++ released).foldl (fun t o => retireIfUnused o t) s1) :=
    RosterWork.foldl _ (fun t o => rosterWork_retireIfUnused o t) _ _
  generalize (retired ++ released).foldl (fun t o => retireIfUnused o t) s1 = s2 at h2
  have h3 : RosterWork s1 (publishRoster f s2) :=
    h2.trans (RosterWork.foldl (publishValidator f) (fun t i => rosterWork_publishValidator f t i) _ _)
  exact h.of_same h3.slots h3.lanes

theorem slotsTold_publishFare (o : Nat) (s : State) :
    SlotsTold (Retires (s.fare.toList.map FareRecord.image)) s (publishFare o s) := by
  have h : RosterWork s (setObjectState o .published s) := rosterWork_modObject o _ s
  unfold publishFare
  simp only
  cases hf : s.fare with
  | none => exact (slotsTold_handOff _ _ _ _).from_same h.slots h.lanes
  | some f =>
    have h2 : RosterWork { setObjectState o .published s with fare := some ⟨generationOf s o, o⟩ }
      (setObjectState f.image .retiring { setObjectState o .published s with fare := some ⟨generationOf s o, o⟩ }) := rosterWork_modObject _ _ _
    exact (slotsTold_handOff _ _ _ _).from_same (h2.slots.trans h.slots) (h2.lanes.trans h.lanes)

theorem slotsTold_publishDelta (o : Nat) (b : BlockRecord) (s : State) : SlotsTold (Retires []) s (publishDelta o b s) := by
  have h : RosterWork s (setObjectState o .published s) := rosterWork_modObject o _ s
  exact (slotsTold_handOff _ _ _ _).from_same h.slots h.lanes

theorem slotsTold_startChain (o : Nat) (s : State) : SlotsTold (Retires []) s (startChain o s) := by
  have h : RosterWork s (setObjectState o .published s) := rosterWork_modObject o _ s
  exact (slotsTold_handOff _ _ _ _).from_same h.slots h.lanes

theorem rosterWork_failMerge (j : MergeJob) (r : MergeFailure) (n : Nat) (s : State) :
    (failMerge j r n s).slots = s.slots ∧ (failMerge j r n s).lanes = s.lanes := by
  have h1 := rosterWork_freeObject j.result s
  have h2 := RosterWork.foldl (fun t o => releaseRef o t) (fun t o => rosterWork_modObject o _ t) j.sources (freeObject j.result s)
  have h3 := rosterWork_submit (.mergeFailed j.result j.target r n) (releaseSources j (freeObject j.result s))
  exact ⟨h3.slots.trans ((h1.trans h2).slots), h3.lanes.trans ((h1.trans h2).lanes)⟩

theorem slotsTold_rebase (o : Nat) (b : BlockRecord) (s : State) : SlotsTold
    (Retires (b.baseObject :: coveredDeltas s (generationOf s o) b.chain)) s (rebase o b s) := by
  unfold rebase
  simp only
  generalize b.baseObject :: coveredDeltas s (generationOf s o) b.chain = retired
  have h1 : RosterWork s (retired.foldl (fun t d => setObjectState d .retiring t) (setObjectState o .published s)) :=
    (rosterWork_modObject o _ s).trans (RosterWork.foldl _ (fun t d => rosterWork_modObject d _ t) _ _)
  generalize retired.foldl (fun t d => setObjectState d .retiring t) (setObjectState o .published s) = s1 at h1
  have h2 : ∀ (p : Option (Nat × Nat)) (u : State), RosterWork u (freeStale p u) := by
    intro p u; unfold freeStale; split
    · exact RosterWork.refl u
    · exact rosterWork_freeObject _ u
  have h3 : ∀ (g : Nat) (u : State), (abortReached g u).1.slots = u.slots ∧ (abortReached g u).1.lanes = u.lanes := by
    intro g u; unfold abortReached; split
    · exact ⟨rfl, rfl⟩
    · split_ifs
      · exact rosterWork_failMerge _ _ _ _
      · exact ⟨rfl, rfl⟩
  refine (slotsTold_handOff _ _ _ _).from_same ?_ ?_
  · exact (h3 _ _).1.trans ((h2 _ _).slots.trans h1.slots)
  · exact (h3 _ _).2.trans ((h2 _ _).lanes.trans h1.lanes)

/-! ## The objects of a publish (R16, R19, R20) -/

/-- An object-table entry after one entry is changed. -/
theorem look_modObject (o d : Nat) (f : ContentObject → ContentObject) (s : State) :
    look (modObject o f s).objects d = if d = o then (look s.objects d).map f else look s.objects d := by
  unfold modObject
  by_cases h : d = o
  · subst h
    cases hd : look s.objects d with
    | none => simp [hd]
    | some r => simp [look_put_same]
  · simp only [h, if_false]
    split
    · rfl
    · exact look_put_other _ _ _ _ h

/-- An object-table entry after a list of objects became RETIRING. -/
theorem look_retireAll (ds : List Nat) (d : Nat) : ∀ (s : State),
    look (ds.foldl (fun t d => setObjectState d .retiring t) s).objects d =
      if d ∈ ds then (look s.objects d).map (fun r => { r with state := .retiring }) else look s.objects d := by
  induction ds with
  | nil => intro s; simp
  | cons a ds ih =>
    intro s
    rw [List.foldl_cons, ih, setObjectState, look_modObject]
    by_cases h1 : d = a
    · subst h1
      cases look s.objects d <;> simp
    · simp [h1]

/-- An object-table entry after one reference is dropped on each object of a list. -/
theorem look_releaseAll (ds : List Nat) (d : Nat) : ∀ (s : State), look (ds.foldl (fun t o => releaseRef o t) s).objects d =
    (look s.objects d).map (fun r => { r with refs := r.refs - ds.count d }) := by
  induction ds with
  | nil => intro s; cases h : look s.objects d <;> simp [h]
  | cons a ds ih =>
    intro s
    rw [List.foldl_cons, ih, releaseRef, look_modObject]
    by_cases h1 : d = a
    · subst h1; cases look s.objects d <;> simp [Nat.sub_sub, Nat.add_comm]
    · rw [if_neg h1, List.count_cons_of_ne (Ne.symm h1)]

/-- An object-table entry after an object is freed. -/
theorem look_freeObject (o d : Nat) (s : State) (hs : tableWf Config.objectEntries 0 s.objects = true) :
    look (freeObject o s).objects d = if d = o then none else look s.objects d := by
  unfold freeObject
  by_cases h : d = o
  · subst h
    cases hd : look s.objects d with
    | none => simp [hd]
    | some r => simpa using look_erase_same _ _ _ _ hs
  · simp only [h, if_false]
    split
    · rfl
    · exact look_erase_other _ _ _ h

theorem wf_freeObject (o : Nat) (s : State) (hs : tableWf Config.objectEntries 0 s.objects = true) :
    tableWf Config.objectEntries 0 (freeObject o s).objects = true := by
  unfold freeObject; split
  · exact hs
  · exact tableWf_erase _ _ _ _ hs

theorem wf_retireIfUnused (o : Nat) (s : State) (hs : tableWf Config.objectEntries 0 s.objects = true) :
    tableWf Config.objectEntries 0 (retireIfUnused o s).objects = true := by
  unfold retireIfUnused; split
  · exact hs
  · split_ifs
    · rw [submit_objects]; exact wf_freeObject _ _ hs
    · exact hs

/-- An object-table entry after the check of R20 on one object. -/
theorem look_retireIfUnused (o d : Nat) (s : State) (hs : tableWf Config.objectEntries 0 s.objects = true) :
    look (retireIfUnused o s).objects d =
      (look s.objects d).bind (fun r => if d = o ∧ r.state = .retiring ∧ r.refs = 0 then none else some r) := by
  unfold retireIfUnused
  cases ho : look s.objects o with
  | none =>
    by_cases h : d = o
    · subst h; simp [ho]
    · simp [h]
  | some r =>
    simp only []
    by_cases hr : r.state = .retiring ∧ r.refs = 0
    · rw [if_pos hr, submit_objects, look_freeObject _ _ _ hs]
      by_cases h : d = o
      · subst h; simp [ho, hr]
      · simp [h]
    · rw [if_neg hr]
      by_cases h : d = o
      · subst h; rw [ho]; simp only [Option.bind_some]; rw [if_neg (fun hc => hr hc.2)]
      · simp [h]

/-- An object-table entry after the check of R20 on each object of a list. -/
theorem look_retireIfAll (ds : List Nat) (d : Nat) : ∀ (s : State), tableWf Config.objectEntries 0 s.objects = true →
    look (ds.foldl (fun t o => retireIfUnused o t) s).objects d =
    (look s.objects d).bind (fun r => if d ∈ ds ∧ r.state = .retiring ∧ r.refs = 0 then none else some r) := by
  induction ds with
  | nil => intro s _; simp
  | cons a ds ih =>
    intro s hs
    rw [List.foldl_cons, ih _ (wf_retireIfUnused a s hs), look_retireIfUnused a d s hs]
    cases look s.objects d with
    | none => rfl
    | some r =>
      simp only [Option.bind_some, List.mem_cons]
      by_cases h1 : d = a <;> by_cases h2 : d ∈ ds <;> by_cases h3 : r.state = .retiring ∧ r.refs = 0 <;> simp [h1, h3]

/-- The hand-off to the slots leaves the objects as they are. -/
theorem objects_retireSlots (os : List Nat) (s : State) : (os.foldl (fun t o => retireSlots o t) s).objects = s.objects := by
  have h1 : ∀ o (ks : List SlotIx) (u : State), (ks.foldl (retireSlot o) u).objects = u.objects := by
    intro o ks
    induction ks with
    | nil => intro u; rfl
    | cons k ks ih =>
      intro u; rw [List.foldl_cons, ih]; unfold retireSlot; split
      · rfl
      · split_ifs <;> simp
  induction os generalizing s with
  | nil => rfl
  | cons o os ih => rw [List.foldl_cons, ih]; exact h1 o allSlots s

/-- The recomputation of the roster leaves the objects as they are. -/
theorem objects_publishRoster (f : Option Stream) (s : State) : (publishRoster f s).objects = s.objects := by
  unfold publishRoster
  generalize keys s.validators = ks
  induction ks generalizing s with
  | nil => rfl
  | cons k ks ih =>
    rw [List.foldl_cons, ih]
    unfold publishValidator
    split
    · rfl
    · simp only
      have : ∀ bs (u : State), (submitAll bs u).objects = u.objects := by
        intro bs; induction bs with
        | nil => intro u; rfl
        | cons b bs ih => intro u; unfold submitAll at *; rw [List.foldl_cons, ih, submit_objects]
      rw [this]

theorem wf_modObject (o : Nat) (f : ContentObject → ContentObject) (s : State)
    (hs : tableWf Config.objectEntries 0 s.objects = true) : tableWf Config.objectEntries 0 (modObject o f s).objects = true := by
  unfold modObject
  split
  · exact hs
  · rename_i r hr
    have := range_of_look _ _ 0 o r hs hr
    exact tableWf_put _ _ _ _ 0 (Nat.zero_le o) this.2 hs

/-- The hand-off of a publish frees exactly the retired and released objects that are RETIRING without a reference (R18, R20). -/
theorem look_handOff (f : Option Stream) (retired released : List Nat) (s : State) (d : Nat)
    (hs : tableWf Config.objectEntries 0 s.objects = true) : look (handOff f retired released s).objects d =
      (look s.objects d).bind (fun r => if d ∈ retired ++ released ∧ r.state = .retiring ∧ r.refs = 0 then none else some r) := by
  unfold handOff
  simp only [objects_publishRoster]
  rw [look_retireIfAll _ _ _ (by rw [objects_retireSlots]; exact hs), objects_retireSlots]

end Sys2Proof.Machine
end

