-- ==== Sys2Proof/Laws/Scanner.lean ====
section
/-! SUPPORT. What the ranked order and the walk of a scan do. -/

namespace Sys2Proof.Machine

theorem look_of_mem_keys {α : Type} (t : Table α) (k : Nat) (h : k ∈ keys t) : ∃ a, look t k = some a := by
  induction t with
  | nil => simp [keys] at h
  | cons p t ih =>
    obtain ⟨i, b⟩ := p
    by_cases hk : i = k
    · exact ⟨b, by simp [look, hk]⟩
    · simp only [keys, List.map_cons, List.mem_cons] at h
      rcases h with h | h
      · exact absurd h.symm hk
      · obtain ⟨a, ha⟩ := ih h
        exact ⟨a, by simp [look, hk, ha]⟩

/-- No entry in use lies between two indices when every one in use lies outside them. -/
theorem noEntryBetween_of (s : State) (a b : Nat) (h : ∀ j v, look s.validators j = some v → j < a ∨ b ≤ j) :
    noEntryBetween s a b = true := by
  simp only [noEntryBetween, List.all_eq_true, Bool.or_eq_true, decide_eq_true_eq]
  intro j hj
  obtain ⟨v, hv⟩ := look_of_mem_keys _ _ hj
  exact h j v hv

/-- The order of R80 as a relation. -/
def RankedLe (a b : RankedEntry) : Prop :=
  a.cls < b.cls ∨ (a.cls = b.cls ∧
    ((a.cls ≠ 2 ∧ a.slack < b.slack) ∨ (a.cls = 2 ∧ b.slack < a.slack) ∨ (a.slack = b.slack ∧ a.index ≤ b.index)))

theorem rankedBefore_iff (a b : RankedEntry) : rankedBefore a b = true ↔ RankedLe a b := by
  unfold rankedBefore RankedLe
  split_ifs <;> simp <;> omega

theorem rankedLe_of_not (a b : RankedEntry) (h : ¬rankedBefore a b = true) : RankedLe b a := by
  rw [rankedBefore_iff] at h
  unfold RankedLe at *
  omega

theorem RankedLe.trans {a b c : RankedEntry} (h : RankedLe a b) (k : RankedLe b c) : RankedLe a c := by
  unfold RankedLe at *
  omega

theorem insertRanked_perm (e : RankedEntry) (l : List RankedEntry) : (insertRanked e l).Perm (e :: l) := by
  induction l with
  | nil => exact List.Perm.refl _
  | cons x xs ih =>
    simp only [insertRanked]
    split_ifs
    · exact List.Perm.refl _
    · exact (List.Perm.cons x ih).trans (List.Perm.swap e x xs)

theorem rankedOrder_perm (l : List RankedEntry) : (rankedOrder l).Perm l := by
  induction l with
  | nil => exact List.Perm.refl _
  | cons x xs ih => exact (insertRanked_perm x (rankedOrder xs)).trans (ih.cons x)

theorem insertRanked_sorted (e : RankedEntry) (l : List RankedEntry) (h : l.Pairwise RankedLe) :
    (insertRanked e l).Pairwise RankedLe := by
  induction l with
  | nil => simp [insertRanked]
  | cons x xs ih =>
    simp only [insertRanked]
    split_ifs with c
    · rw [rankedBefore_iff] at c
      refine List.Pairwise.cons (fun y hy => ?_) h
      rcases List.mem_cons.1 hy with rfl | hy
      · exact c
      · exact c.trans ((List.pairwise_cons.1 h).1 y hy)
    · refine List.Pairwise.cons (fun y hy => ?_) (ih (List.pairwise_cons.1 h).2)
      rcases List.mem_cons.1 ((insertRanked_perm e xs).mem_iff.1 hy) with rfl | hy
      · exact rankedLe_of_not _ _ c
      · exact (List.pairwise_cons.1 h).1 y hy

theorem rankedOrder_sorted (l : List RankedEntry) : (rankedOrder l).Pairwise RankedLe := by
  induction l with
  | nil => exact List.Pairwise.nil
  | cons x xs ih => exact insertRanked_sorted x _ ih

theorem submitAll_validators (bs : List ReportBody) (s : State) : (submitAll bs s).validators = s.validators := by
  induction bs generalizing s with
  | nil => rfl
  | cons b bs ih => exact (ih (submit b s)).trans (by simp)

theorem submitAll_vehicles (bs : List ReportBody) (s : State) : (submitAll bs s).vehicles = s.vehicles := by
  rw [(rosterWork_submitAll bs s).rest]

end Sys2Proof.Machine
end

