-- ==== Sys2Proof/Tests/Slice0.lean ====
section
/-! SUPPORT. Tests of the model on small states: the checks of WellFormed, the check values of the CRCs, the spec's worked figures, one
step of some commands, and for every statement with hypotheses states and operands that meet them. -/

namespace Sys2Proof.Tests

-- One theorem after another: many kernel evaluations at once would each hold a thread.
set_option Elab.async false

open Sys2Proof.Machine

/-! ## States -/

/-- The state with a request in the processor and the receiver open. -/
def ask (r : Request) (s : State) : State := { s with host := { s.host with processor := .busy 7 r, rxOpen := true } }

/-- After reset, with a request in the processor. -/
def asked (r : Request) : State := ask r State.reset

/-- A lane that runs, in a phase. -/
def laneIn (st : LaneState) (p : Phase) : Lane :=
  { Lane.off false with state := st, phase := p, efficiency := 800, roundStart := 0 }

/-- The state with a lane's record put in place. -/
def withLane (i : LaneIx) (l : Lane) (s : State) : State := { s with lanes := s.lanes.set i l }

/-- An object of one block. -/
def object (k : ObjKind) (g size block : Nat) (st : ObjState) (refs : Nat) : ContentObject :=
  ⟨k, g, size, 0, if st = .loading then 0 else size, [block], none, none, st, refs, none⟩

/-- A validator attached to a vehicle, with a work list and a BLOCK lag. -/
def validator (serial position : Nat) (vehicle : Option Nat) (work : List Nat) (lag : Nat) : Validator :=
  ⟨serial, vehicle, position, none, some 40, work, lag, .full, 1, some 5, .nonneg, StickyFlags.clear, none, 100⟩

/-- A binding of slot 0. -/
def bound (st : SlotState) (step : SlotStep) : Binding :=
  ⟨st, step, 0, 9001, 0, 3, 2, 256, 4, true, 1, 0, 0, 3, none, 5000, false⟩

/-- A yard: a published image, base and delta with a staged delta and a LOADING image; three vehicles, of which 318 is PRESENT, 77 ASLEEP
and 500 EXPECTED, all on lane 3, which runs; two validators of 318; slot 0 bound to the first. -/
def yard : State :=
  { withLane 3 (laneIn .active .service) State.reset with
    pool := (List.range 4096).drop 5
    objects := [(0, object .fareImage 5 1000 0 .published 0), (1, object .base 40 700 1 .published 0),
      (2, object .delta 41 1000 2 .published 1), (3, object .delta 42 900 3 .staged 0), (4, object .fareImage 6 1000 4 .loading 0)]
    fare := some ⟨5, 0⟩
    block := some ⟨40, 41, 1, [2]⟩
    vehicles := [(0, ⟨318, 3, .present, some 3000, [0, 1], 100, 0, 1⟩), (1, ⟨77, 3, .asleep, none, [], 90, 2, 0⟩),
      (2, ⟨500, 3, .expected, some 2000, [], 80, 0, 0⟩)]
    validators := [(0, { validator 9001 1 (some 0) [2, 0] 1 with boundSlot := some 0 }), (1, validator 9002 2 (some 0) [2, 0] 1)]
    clock := ⟨1000, false, 2000000⟩
    slots := (State.reset.slots).set 0 ⟨some (bound .send (.seg 0)), .none, false⟩
    host := { State.reset.host with queue := [], rxOpen := true } }

/-- The yard with a request in the processor. -/
def yardAsked (r : Request) : State := ask r yard

/-- The yard with the binding of slot 0 replaced. -/
def yardSlot (b : Binding) : State := { yard with slots := yard.slots.set 0 ⟨some b, .none, false⟩ }

/-- A running scan of the yard at a cursor. -/
def scanRun (cursor : Nat) : ScanRun :=
  ⟨1000, false, 2, (Vector.replicate 6 none).set 3 (some ⟨24, 256, 60, 120, .both, 800⟩), cursor, [], 0, 0⟩

/-- The yard with a scan RUNNING. -/
def yardScan (cursor : Nat) : State := { yard with scanner := { yard.scanner with run := some (scanRun cursor) } }

/-- The yard with its two validators ranked and a dispatch walk due. -/
def yardRanked : State :=
  { yard with
    scanner := { yard.scanner with ranked := [⟨0, 9001, 3, 1, 5, .full⟩, ⟨1, 9002, 3, 1, 5, .full⟩] }
    policy := { yard.policy with relayDepth := 2 }
    dispatchDue := true }

/-- The state with every report queued, whatever its level. -/
def loud (s : State) : State := { s with policy := { s.policy with reportThreshold := 0 } }

/-- The reports in the queue, in their order. -/
def queued (s : State) : List ReportBody := s.host.queue.map Report.body

/-- The report of an end of the yard's slot. -/
def yardEnded (o : Nat) (k : ObjKind) (g : Nat) (c : EndCond) : ReportBody :=
  .transferEnded ⟨0, 0, 9001, 318, 3, o, k, g, c, false, 3, 0⟩

/-- A host frame after its start byte, with its CRC-16. -/
def hostBytes (kind : Nat) (tag : Byte) (body : List Byte) : List Byte := (hostFrame kind tag body).drop 1

/-- A relay's frame with its CRC-16. -/
def relayBytes (kind lane vehicle position : Nat) (seqBit : Bool) (body : List Byte) : List Byte :=
  let covered := leBytes 1 kind ++ leBytes 1 lane ++ leBytes 2 vehicle ++ leBytes 1 position ++ boolByte seqBit ++
    leBytes 2 body.length ++ body
  0x5C :: covered ++ leBytes 2 (crc16 covered).toNat

/-- A transaction of slot 0 in flight on lane 3. -/
def inFlight (o : Owner) : Transaction := ⟨o, .fetchSegment, 318, 1, true, 11, 100, 3000, 43000, 49000⟩

/-- The yard with a transaction in flight on lane 3. -/
def yardFlight (o : Owner) : State := withLane 3 { laneIn .active .service with transaction := some (inFlight o) } yard

/-- The next state that a command answers with. -/
def after (c : Instr) (s : State) : Option State :=
  match exec c s with
  | .next t => some t
  | .fault _ => none
  | .refused _ => none

/-- A command that has a next state here answers with it. -/
theorem exec_of_after (c : Instr) (s t : State) (h : after c s = some t) : exec c s = .next t := by
  unfold after at h
  cases he : exec c s <;> simp_all

/-- What look finds is among the numbers in use. -/
theorem key_of_look {α : Type} (t : Table α) (k : Nat) (a : α) (h : look t k = some a) : k ∈ keys t := by
  induction t with
  | nil => simp [look] at h
  | cons p t ih =>
    obtain ⟨i, b⟩ := p
    by_cases hk : i = k
    · simp [keys, hk]
    · simp only [look, hk, if_false] at h
      simp only [keys, List.map_cons, List.mem_cons]
      exact Or.inr (ih h)

/-! ## The checks of WellFormed -/

theorem test_refused_hostFrameEnd_length_low : (Instr.hostFrameEnd [1, 0, 1, 0, 0]).wellFormed = false := by decide +kernel
theorem test_refused_hostFrameEnd_length_high : (Instr.hostFrameEnd ([0x4F, 4] ++ List.replicate 1105 0)).wellFormed = false := by
  decide +kernel
theorem test_refused_hostFrameEnd_size : (Instr.hostFrameEnd [2, 0, 1, 0, 0]).wellFormed = false := by decide +kernel
theorem test_refused_hostFrameAbort : (Instr.hostFrameAbort (hostBytes 1 0 [])).wellFormed = false := by decide +kernel
theorem test_refused_hostFrameTimeout : (Instr.hostFrameTimeout [1, 0]).wellFormed = false := by decide +kernel
theorem test_refused_mergeProgress : (Instr.mergeProgress 0).wellFormed = false := by decide +kernel
theorem test_refused_silenceLimitReached : (Instr.silenceLimitReached 256).wellFormed = false := by decide +kernel
theorem test_refused_scanEntryTurn : (Instr.scanEntryTurn 1024).wellFormed = false := by decide +kernel
theorem test_refused_roundEnd : (Instr.roundEnd 0 2308).wellFormed = false := by decide +kernel
theorem test_refused_laneFrameReceived_sync : (Instr.laneFrameReceived 0 (0 :: (relayBytes 3 0 1 0 false []).tail) 0).wellFormed = false := by
  decide +kernel
theorem test_refused_laneFrameReceived_size : (Instr.laneFrameReceived 0 (relayBytes 3 0 1 0 false [] ++ [0]) 0).wellFormed = false := by
  decide +kernel
theorem test_refused_laneFrameReceived_long :
    (Instr.laneFrameReceived 0 ([0x5C, 2, 0, 1, 0, 0, 0, 0xFA, 8] ++ List.replicate 2300 0) 0).wellFormed = false := by decide +kernel
theorem test_refused_laneFrameIdleEnd_none : (Instr.laneFrameIdleEnd 0 0 0).wellFormed = false := by decide +kernel
theorem test_refused_laneFrameIdleEnd_many : (Instr.laneFrameIdleEnd 0 2308 0).wellFormed = false := by decide +kernel
theorem test_refused_transactionBudgetEnd_none : (Instr.transactionBudgetEnd 0 0).wellFormed = false := by decide +kernel
theorem test_refused_transactionBudgetEnd_many : (Instr.transactionBudgetEnd 0 2308).wellFormed = false := by decide +kernel
theorem test_refused_laneBreakReceived : (Instr.laneBreakReceived 0 2308 0).wellFormed = false := by decide +kernel
theorem test_refused_laneFrameTooLong_short : (Instr.laneFrameTooLong 0 [0x5C, 2, 0, 1, 0, 0, 0, 0xF9, 8] 0).wellFormed = false := by decide +kernel
theorem test_refused_laneFrameTooLong_size : (Instr.laneFrameTooLong 0 [0x5C, 2, 0, 1, 0, 0, 0, 0xFA] 0).wellFormed = false := by decide +kernel
theorem test_refused_laneFrameTooLong_sync : (Instr.laneFrameTooLong 0 [0, 2, 0, 1, 0, 0, 0, 0xFA, 8] 0).wellFormed = false := by decide +kernel
theorem test_accepted_longest_frames : (Instr.laneFrameTooLong 0 [0x5C, 2, 0, 1, 0, 0, 0, 0xFA, 8] 0).wellFormed = true ∧
    (Instr.hostFrameEnd (hostBytes 1 0 [])).wellFormed = true ∧ (Instr.scanEntryTurn 1023).wellFormed = true := by decide +kernel

/-! ## Figures of the spec -/

/-- The check values of both CRCs over the nine characters 1 to 9 (R170). -/
theorem test_crc_check_values :
    crc16 [0x31, 0x32, 0x33, 0x34, 0x35, 0x36, 0x37, 0x38, 0x39] = 0x29B1#16 ∧
    crc32 [0x31, 0x32, 0x33, 0x34, 0x35, 0x36, 0x37, 0x38, 0x39] = 0xCBF43926#32 := by decide +kernel

/-- The airtime and slack of the largest base on the poorest lane (04, worked figures). -/
theorem test_poor_lane : wireBytes 64 [3145723] = 4325467 ∧ airtime 4325467 960 100 = 65535 ∧
    slackOf (some 1000) false 101000 60 65535 = -32768 := by decide +kernel

/-- The ranked order of the worked scan (04, Ranking one scan). -/
theorem test_ranked_order :
    (rankedOrder [⟨3, 1, 0, 0, 5, .blockOnly⟩, ⟨12, 2, 0, 0, -40, .full⟩, ⟨17, 3, 0, 1, 300, .full⟩, ⟨20, 4, 0, 1, 300, .full⟩,
      ⟨25, 5, 0, 2, -15, .full⟩, ⟨31, 6, 0, 2, -200, .full⟩, ⟨40, 7, 0, 1, 32767, .full⟩]).map RankedEntry.index =
      [12, 3, 17, 20, 40, 25, 31] := by decide +kernel

/-- The efficiency held at 100 by its lower clamp (R68). -/
theorem test_efficiency_floor : newEfficiency 100 0 4096 = 100 ∧ newEfficiency 800 4096 4096 = 850 := by decide +kernel

/-- Lane 3 of the worked round: its rate and budgets (06, Worked round). -/
theorem test_worked_budgets : laneRate 36 = 25600 ∧
    stateBudget { laneIn .active .service with rate := 25600 } = 9 ∧
    replyBudget { laneIn .active .service with rate := 25600 } 141 11 = 100 ∧
    replyBudget { laneIn .active .service with rate := 25600 } 11 12 = 49 := by decide +kernel

/-- A delta of 2,096 bytes at segment size 448 (R85). -/
theorem test_segments : ceilDiv 2096 448 = 5 ∧ min 448 (2096 - 4 * 448) = 304 := by decide +kernel

/-- A base of one entry passes the content check; with the reason 16, another generation, a short size or a repeated card it fails with
its fault (R27). -/
theorem test_content_check :
    contentFault .base 40 25 (baseHeader 40 1 ++ leBytes 8 77 ++ [3]) = none ∧
    contentFault .base 40 25 (baseHeader 40 1 ++ leBytes 8 77 ++ [16]) = some (.reason, 0) ∧
    contentFault .base 41 25 (baseHeader 40 1 ++ leBytes 8 77 ++ [3]) = some (.header, 0) ∧
    contentFault .base 40 24 (baseHeader 40 1 ++ leBytes 8 77) = some (.length, 0) ∧
    contentFault .base 40 34 (baseHeader 40 2 ++ leBytes 8 77 ++ [3] ++ leBytes 8 77 ++ [3]) = some (.order, 1) := by decide +kernel

/-- The header of a delta with its ADD count. -/
def deltaHeader (generation entries adds : Nat) : List Byte :=
  leBytes 4 0x5A3C0001 ++ leBytes 2 3 ++ leBytes 4 generation ++ leBytes 4 entries ++ leBytes 2 adds

/-- A delta entry. -/
def deltaEntry (action card reason : Nat) : List Byte := leBytes 1 action ++ leBytes 8 card ++ leBytes 1 reason

/-- A delta that adds one card and removes another passes; with an unknown action, an ADD without a reason, a REMOVE with one, cards out of
order, another ADD count or a size of the wrong form it fails with its fault; a base of no entry is the smallest there is (R25, R27). -/
theorem test_delta_check :
    contentFault .delta 41 36 (deltaHeader 41 2 1 ++ deltaEntry 1 5 3 ++ deltaEntry 2 9 0) = none ∧
    contentFault .delta 41 36 (deltaHeader 41 2 1 ++ deltaEntry 1 5 3 ++ deltaEntry 3 9 0) = some (.action, 1) ∧
    contentFault .delta 41 36 (deltaHeader 41 2 1 ++ deltaEntry 1 5 0 ++ deltaEntry 2 9 0) = some (.reason, 0) ∧
    contentFault .delta 41 36 (deltaHeader 41 2 1 ++ deltaEntry 1 5 3 ++ deltaEntry 2 9 4) = some (.reason, 1) ∧
    contentFault .delta 41 36 (deltaHeader 41 2 1 ++ deltaEntry 1 9 3 ++ deltaEntry 2 9 0) = some (.order, 1) ∧
    contentFault .delta 41 36 (deltaHeader 41 2 2 ++ deltaEntry 1 5 3 ++ deltaEntry 2 9 0) = some (.count, 0) ∧
    contentFault .delta 41 36 (deltaHeader 41 1 1 ++ deltaEntry 1 5 3 ++ deltaEntry 2 9 0) = some (.count, 0) ∧
    contentFault .delta 41 35 (deltaHeader 41 2 1) = some (.length, 0) ∧
    contentFault .base 40 16 (baseHeader 40 0) = none ∧ contentFault .base 40 15 (baseHeader 40 0) = some (.length, 0) := by decide +kernel

/-! ## One step of some commands -/

theorem test_setTime : (after .setTime (asked (.setTime 500))).map (fun t => (t.clock, t.host.replyPlace)) =
    some (⟨500, false, 1000000⟩, some ⟨0x96, 7, .ok, [0, 0, 0, 0, 1]⟩) := by decide +kernel

theorem test_wakeLane_off : (after .wakeLane (asked (.wakeLane 5))).map (fun t => (t.host.replyPlace, t.host.processor)) =
    some (some ⟨0x94, 7, .laneOff, []⟩, .idle) := by decide +kernel

theorem test_put_taken : (slotOutcome 0 false .taken yard).slots.get 0 =
    ⟨some { bound .await (.seg 0) with errors := 0, putTime := some 0, fetchTime := 30000 }, .none, false⟩ := by decide +kernel

theorem test_fetch_ack : (slotOutcome 0 false (.verdict 1) (yardSlot (bound .await (.seg 0)))).slots.get 0 =
    ⟨some { bound .send (.seg 1) with errors := 0, seqBit := false }, .none, false⟩ := by decide +kernel

theorem test_fetch_applied : ((slotOutcome 0 false (.verdict 5) (yardSlot (bound .await .close))).slots.get 0 = ⟨none, .done, false⟩) ∧
    (look (slotOutcome 0 false (.verdict 5) (yardSlot (bound .await .close))).validators 0).map Validator.heldBlock = some (some 41) := by
  decide +kernel

theorem test_beacon_names_77_only_when_ranked : wakeList yard 3 = [2] ∧
    wakeList { yard with
      validators := yard.validators ++ [(2, validator 9003 1 (some 1) [2] 1)]
      scanner := { yard.scanner with ranked := [⟨2, 9003, 3, 1, 5, .full⟩] } } 3 = [1, 2] := by decide +kernel

/-! ## States and operands that meet the hypotheses of the statements -/

/-- StepRunsFrontCommand. -/
theorem test_meets_StepRunsFrontCommand :
    ({ State.reset with pending := [.identify, .scanNow] } : State).pending = .identify :: [.scanNow] ∧ State.reset.pending = [] :=
  ⟨rfl, rfl⟩

/-- ResetsStartEveryBlock, ResetPinHoldsTheLink: an asserted pin, and a RESET_PART that takes effect with the pin asserted and not. -/
theorem test_meets_resets :
    ({ yard with resetPin := true } : State).resetPin = true ∧
    (∀ p, ({ yard with resetPin := p, host := { yard.host with processor := .awaitReset true } } : State).host.processor = .awaitReset true) ∧
    (∀ p, (after (.resetPartTakesEffect ⟨false, false⟩)
      { yard with resetPin := p, host := { yard.host with processor := .awaitReset true } }).map State.resetPin = some p) ∧
    State.reset.host.rxOpen = false := ⟨rfl, fun _ => rfl, fun _ => rfl, rfl⟩

/-- HostFrameStartTakesABuffer: both buffers FREE, one FREE, none FREE. -/
theorem test_meets_HostFrameStart :
    (yard.host.rxOpen = true ∧ yard.host.receiver = .hunting ∧ yard.host.buffers.get 0 = .free) ∧
    (let b : Vector Buffer 2 := yard.host.buffers.set 0 .filling; b.get 0 ≠ .free ∧ b.get 1 = .free) ∧
    (let b : Vector Buffer 2 := Vector.replicate 2 .filling; b.get 0 ≠ .free ∧ b.get 1 ≠ .free) := by decide +kernel

/-- HostFrameEnds: the shortest frame, good and with a wrong CRC-16; lengths 1 and 1,103; a part of a frame at 1,102. -/
theorem test_meets_HostFrameEnds :
    (∃ s : State, s.host.rxOpen = true ∧ s.host.receiver = .receiving 1) ∧
    (∃ s : State, s.host.rxOpen = true ∧ s.host.receiver = .discarding) ∧
    (let bs := hostBytes 1 9 []; wholeHostFrame bs = true ∧
      field bs (field bs 0 2 + 2) 2 = (crc16 (bs.take (field bs 0 2 + 2))).toNat) ∧
    (let bs : List Byte := [2, 0, 1, 9, 0, 0]; wholeHostFrame bs = true ∧
      field bs (field bs 0 2 + 2) 2 ≠ (crc16 (bs.take (field bs 0 2 + 2))).toNat) ∧
    badHostLength [1, 0] = true ∧ badHostLength [0x4F, 4] = true ∧ partHostFrame [] = true ∧ partHostFrame [0x4E, 4] = true :=
  ⟨⟨{ yard with host := { yard.host with receiver := .receiving 1 } }, rfl, rfl⟩,
    ⟨{ yard with host := { yard.host with receiver := .discarding } }, rfl, rfl⟩, by decide +kernel⟩

/-- HostLinkBreakClearsTheReceiver. -/
theorem test_meets_HostLinkBreak : yard.host.rxOpen = true ∧
    ({ yard with host := { yard.host with receiver := .inBreak } } : State).host.receiver = .inBreak := ⟨rfl, rfl⟩

/-- RequestTakeJudgesKindAndLength: kinds 0 and 0x19, a body one byte too long and one too short, the longest body; a refusal that is to be
completed, and a processor that holds none. -/
theorem test_meets_RequestTake :
    (∀ r : RawRequest, ∃ s : State, s.host.processor = .idle ∧ s.host.replyPlace = none ∧ s.host.order = 0 :: [] ∧
      s.host.buffers.get 0 = .waiting r) ∧
    bodyLengths 0 = none ∧ bodyLengths 0x19 = none ∧ bodyLengths 0x01 = some (0, 0) ∧ ¬(0 ≤ 1 ∧ 1 ≤ 0) ∧
    bodyLengths 0x04 = some (5, 1100) ∧ ¬(5 ≤ 4 ∧ 4 ≤ 1100) ∧ (5 ≤ 1100 ∧ 1100 ≤ 1100) ∧
    Held (asked (.rejected 0xFF .badKind)) 7 (.rejected 0xFF .badKind) ∧
    (asked .identify).host.processor ≠ .idle ∧ (∀ tag k st, (asked .identify).host.processor ≠ .busy tag (.rejected k st)) ∧
    (replied 0x81 7 .ok [] yard).host.replyPlace ≠ none ∧
    (∀ tag k st, (replied 0x81 7 .ok [] yard).host.processor ≠ .busy tag (.rejected k st)) :=
  ⟨fun r => ⟨{ yard with host := { yard.host with order := [0], buffers := yard.host.buffers.set 0 (.waiting r) } },
      rfl, rfl, rfl, rfl⟩, by decide +kernel, by decide +kernel, by decide +kernel, by decide, by decide +kernel, by decide, by decide, rfl,
    by decide +kernel, fun _ _ _ h => by simp [asked, ask] at h, by decide +kernel, fun _ _ _ h => by simp [replied] at h⟩

/-- TransmitterChoosesReplyThenReport: a reply; a report of level 3 behind one of level 0 and before one of level 3; nothing. -/
theorem test_meets_Transmitter :
    (yard.host.transmitter = none ∧ yard.resetPin = false ∧ yard.host.processor ≠ .awaitReset true ∧ yard.host.replyPlace = none ∧
      yard.host.queue = []) ∧
    (replied 0x81 7 .ok [] yard).host.replyPlace = some ⟨0x81, 7, .ok, []⟩ ∧
    (let low : Report := ⟨.objectRetired 0 .base 1, 0⟩; let high : Report := ⟨.laneFault 0 .active 1, 0⟩
      (∀ x ∈ [low], x.body.level < high.body.level) ∧ (∀ x ∈ [high], x.body.level ≤ high.body.level)) := by decide +kernel

/-- TransmitEndAndResetPart. -/
theorem test_meets_TransmitEnd :
    Held (asked .resetPart) 7 .resetPart ∧
    (∀ (f : OutFrame) (p : Processor), ∃ s : State, s.host.transmitter = some f ∧ s.host.processor = p) ∧
    (OutFrame.reply ⟨0x82, 7, .ok, []⟩ = .reply ⟨0x82, 7, .ok, []⟩) ∧
    Processor.idle ≠ .awaitReset false :=
  ⟨rfl, fun f p => ⟨{ yard with host := { yard.host with transmitter := some f, processor := p } }, rfl, rfl⟩, rfl, by decide⟩

/-- TransmitEndAndResetPart while the processor waits: the end of RESET_PART's reply, of an earlier reply, of a refusal with RESET_PART's own
kind and of a report. -/
theorem test_meets_earlierReply :
    (let waits (f : OutFrame) : Option Processor := (after .transmitEnd { yard with
        host := { yard.host with transmitter := some f, processor := .awaitReset false } }).map (fun t => t.host.processor);
      waits (.reply ⟨0x82, 7, .ok, []⟩) = some (.awaitReset true) ∧ waits (.reply ⟨0x81, 6, .ok, []⟩) = some (.awaitReset false) ∧
      waits (.reply ⟨0x82, 6, .badLength, []⟩) = some (.awaitReset false) ∧
      waits (.report ⟨.laneFault 0 .active 1, 0⟩ false) = some (.awaitReset false)) ∧
    (∀ tag b, OutFrame.reply ⟨0x82, 6, .badLength, []⟩ ≠ .reply ⟨0x82, tag, .ok, b⟩) ∧
    (∀ tag b r lost, OutFrame.report r lost ≠ .reply ⟨0x82, tag, .ok, b⟩) :=
  ⟨by decide +kernel, fun _ _ h => (by cases h), fun _ _ _ _ h => (by cases h)⟩

/-- ReportQueueDiscipline: a level below the threshold; 63 and 64 queued; a full queue of level 0 behind level 3; all of level 3. -/
theorem test_meets_ReportQueue :
    (let low : Report := ⟨.objectRetired 0 .base 1, 0⟩; let high : Report := ⟨.laneFault 0 .active 1, 0⟩
      low.body.level < yard.policy.reportThreshold ∧ yard.policy.reportThreshold ≤ high.body.level ∧
      (List.replicate 63 low).length < 64 ∧ 64 ≤ (List.replicate 64 low).length ∧ low.body.level < 3 ∧ high.body.level = 3 ∧
      (∀ x ∈ [high], low.body.level < x.body.level) ∧ (∀ x ∈ List.replicate 62 low, low.body.level ≤ x.body.level) ∧
      (∀ x ∈ List.replicate 64 high, x.body.level = 3)) ∧
    yard.policy.reportThreshold ≤ (ReportBody.linkOverrun 0 0).level ∧ (ReportBody.linkOverrun 0 0).level < 3 := by decide +kernel

/-- IdentifyAnswersTheFixedFields, RequestsNeedTheProcessor, RefusedRequestChangesNothing. -/
theorem test_meets_requests :
    Held (asked .identify) 7 .identify ∧ (∀ tag q, State.reset.host.processor ≠ .busy tag q) ∧
    (∃ t r, exec .loadOpen (asked (.loadOpen 1 2 1 1 0 0)) = .next t ∧ t.host.replyPlace = some r ∧ r.status ≠ .ok ∧
      r.status ≠ .clamped) :=
  ⟨rfl, fun _ _ h => by simp [State.reset, State.start, HostLink.start] at h, ⟨_, _, rfl, rfl, by decide, by decide⟩⟩

/-- LoadOpenOutcome: bad fields by size 0 and one above the largest; the largest sizes; generation 0, one not above, one that does not
follow; a full chain; an occupied place; no entry, too few blocks; room. -/
theorem test_meets_LoadOpen :
    (∀ k, ¬OpenFieldsOk 1 1 0 0 k) ∧ (∀ k, ¬OpenFieldsOk 1 1 262145 0 k) ∧ (∀ k, ¬OpenFieldsOk 2 3 65537 0 k) ∧
    OpenFieldsOk 1 1 262144 9 .fareImage ∧ OpenFieldsOk 2 2 3145728 0 .base ∧ OpenFieldsOk 2 3 65536 0 .delta ∧
    GenerationBad yard .fareImage 0 ∧ GenerationBad yard .fareImage 5 ∧ ¬GenerationBad yard .fareImage 6 ∧
    GenerationBad yard .base 40 ∧ ¬GenerationBad yard .base 41 ∧ GenerationBad yard .delta 41 ∧ GenerationBad State.reset .delta 1 ∧
    (∃ s : State, ChainAtLimit s .delta ∧ ¬GenerationBad s .delta 73) ∧ ¬ChainAtLimit yard .delta ∧ ¬ChainAtLimit yard .base ∧
    objectOf yard .fareImage .loading ≠ none ∧ objectOf yard .delta .staged ≠ none ∧
    objectOf yard .base .loading = none ∧ objectOf yard .base .staged = none ∧ unusedObject yard = some 5 ∧
    (262144 + 1023) / 1024 ≤ yard.pool.length ∧
    unusedObject { yard with objects := (List.range 48).map (fun i => (i, object .delta 1 1 i .retiring 1)) } = none ∧
    ({ yard with pool := [7] } : State).pool.length < (1025 + 1023) / 1024 := by
  refine ⟨?_, ?_, ?_, ?_, ?_, ?_, ?_, ?_, ?_, ?_, ?_, ?_, ?_, ⟨{ yard with block := some ⟨40, 72, 1, []⟩ }, ?_, ?_⟩, ?_, ?_, ?_⟩
  · intro k; cases k <;> simp [OpenFieldsOk]
  · intro k; cases k <;> simp [OpenFieldsOk, Stream.code, ObjKind.code, ObjKind.stream]
  · intro k; cases k <;> simp [OpenFieldsOk, Stream.code, ObjKind.code, ObjKind.stream]
  · simp [OpenFieldsOk, Stream.code, ObjKind.code, ObjKind.stream]
  · simp [OpenFieldsOk, Stream.code, ObjKind.code, ObjKind.stream]
  · simp [OpenFieldsOk, Stream.code, ObjKind.code, ObjKind.stream]
  · exact Or.inl rfl
  · exact Or.inr (Or.inl ⟨_, rfl, by decide⟩)
  · rintro (h | ⟨f, hf, h⟩ | ⟨o, ho, h⟩)
    · exact absurd h (by decide)
    · cases hf; exact absurd h (by decide)
    · exact absurd ho (by decide +kernel +revert)
  · exact Or.inr ⟨_, rfl, by decide⟩
  · rintro (h | ⟨b, hb, h⟩)
    · exact absurd h (by decide)
    · cases hb; exact absurd h (by decide)
  · exact Or.inr (fun b hb => by cases hb; decide)
  · exact Or.inr (fun b hb => by cases hb)
  · exact ⟨rfl, _, rfl, rfl⟩
  · rintro (h | h)
    · exact absurd h (by decide)
    · exact h _ rfl rfl
  · rintro ⟨-, b, hb, h⟩; cases hb; exact absurd h (by decide)
  · rintro ⟨h, -⟩; exact absurd h (by decide)
  · decide +kernel

/-- LoadDataOutcome: no entry; not LOADING; 0 and 1,025 bytes; a wrong offset; past the end by one; the last bytes exactly. -/
theorem test_meets_LoadData :
    look yard.objects 9 = none ∧ look yard.objects 4 = some (object .fareImage 6 1000 4 .loading 0) ∧
    (object .fareImage 5 1000 0 .published 0).state ≠ .loading ∧ (object .fareImage 6 1000 4 .loading 0).state = .loading ∧
    ([] : List Byte).length = 0 ∧ 1024 < (List.replicate 1025 (0 : Byte)).length ∧ 1 ≤ (List.replicate 1024 (0 : Byte)).length ∧
    7 ≠ (object .fareImage 6 1000 4 .loading 0).received ∧ 0 = (object .fareImage 6 1000 4 .loading 0).received ∧
    (object .fareImage 6 1000 4 .loading 0).declaredSize < 0 + 1001 ∧ 0 + 1000 ≤ (object .fareImage 6 1000 4 .loading 0).declaredSize ∧
    BlocksFit (object .fareImage 6 1000 4 .loading 0) ∧ ContentOk yard := by
  refine ⟨by decide +kernel, by decide +kernel, by decide, by decide, by decide, by decide +kernel, by decide +kernel, by decide,
    by decide, by decide, by decide, ⟨by decide, by decide, by decide⟩, by unfold ContentOk; decide +kernel⟩

/-- A base of one entry, loaded whole with its CRC-32, its bytes in block 9. -/
def loadedBase : List Byte := baseHeader 50 1 ++ leBytes 8 77 ++ [3]

/-- The yard with a LOADING object 7 of those bytes, and a CRC-32 as declared. -/
def yardLoaded (k : ObjKind) (g received : Nat) (crc : BitVec 32) : State :=
  { yard with
    content := (writeObject ⟨k, g, 25, crc, received, [9], none, none, .loading, 0, none⟩ 0 loadedBase []).getD []
    objects := yard.objects ++ [(7, ⟨k, g, 25, crc, received, [9], none, none, .loading, 0, none⟩)] }

/-- LoadCloseOutcome: an object not LOADING; short by a byte; a wrong CRC-32; a content fault; a base at and above B; an occupied place. -/
theorem test_meets_LoadClose :
    look yard.objects 9 = none ∧ (object .fareImage 5 1000 0 .published 0).state ≠ .loading ∧
    (let s := yardLoaded .base 50 24 0; ∃ r, look s.objects 7 = some r ∧ r.state = .loading ∧ r.received ≠ r.declaredSize) ∧
    (let s := yardLoaded .base 50 25 0; ∃ r, look s.objects 7 = some r ∧ r.received = r.declaredSize ∧
      crc32 (objectBytes s.content r 0 r.declaredSize) ≠ r.declaredCrc) ∧
    (let s := yardLoaded .base 50 25 (crc32 loadedBase); ∃ r, look s.objects 7 = some r ∧ r.received = r.declaredSize ∧
      crc32 (objectBytes s.content r 0 r.declaredSize) = r.declaredCrc ∧
      contentFault r.kind r.generation r.declaredSize (objectBytes s.content r 0 r.declaredSize) = none ∧
      (∀ b, s.block = some b → b.base < r.generation) ∧ objectOf s r.kind .staged = none) ∧
    (let s := yardLoaded .base 51 25 (crc32 loadedBase); ∃ r, look s.objects 7 = some r ∧ r.kind ≠ .fareImage ∧
      contentFault r.kind r.generation r.declaredSize (objectBytes s.content r 0 r.declaredSize) = some (.header, 0)) ∧
    (let s := { yardLoaded .base 50 25 (crc32 loadedBase) with block := some ⟨50, 50, 1, []⟩ };
      ∃ b, s.block = some b ∧ 50 ≤ b.base) ∧
    objectOf yard .delta .staged ≠ none :=
  ⟨by decide +kernel, by decide, ⟨_, rfl, rfl, by decide⟩, ⟨_, rfl, rfl, by decide +kernel⟩,
    ⟨_, rfl, rfl, by decide +kernel, by decide +kernel, fun b h => by cases h; decide, by decide +kernel⟩,
    ⟨_, rfl, by decide, by decide +kernel⟩, ⟨_, rfl, by decide⟩, by decide +kernel⟩

/-- DiscardOutcome, with a BUILDING result. -/
theorem test_meets_Discard :
    Held (yardAsked (.discard 3)) 7 (.discard 3) ∧ look yard.objects 9 = none ∧
    (∃ r, look yard.objects 3 = some r ∧ r.state = .staged) ∧ (∃ r, look yard.objects 1 = some r ∧ r.state = .published) ∧
    (∃ (s : State) (r : ContentObject) (j : MergeJob), look s.objects 8 = some r ∧ r.state = .building ∧ s.merge = some j ∧
      j.result = 8) :=
  ⟨rfl, rfl, ⟨_, rfl, rfl⟩, ⟨_, rfl, rfl⟩,
    ⟨{ yard with objects := [(8, object .base 41 100 6 .building 0)], merge := some ⟨8, 41, [1, 2], 0, 0⟩ }, _, _, rfl, rfl, rfl, rfl⟩⟩

/-- The yard's blocks are accounted for, and what its records name is there. -/
theorem test_yard_safe : BlocksOk yard ∧ RecordsOk yard ∧ RosterOk yard ∧ ContentOk yard := by
  refine ⟨⟨by decide +kernel, ?_⟩, ⟨?_, ?_, ?_, ?_, ?_⟩, ⟨by decide +kernel, by decide +kernel⟩, by unfold ContentOk; decide +kernel⟩
  · have e : yard.objects.flatMap (fun p => p.2.blocks) = (List.range 4096).take 5 := by decide +kernel
    have h : allBlocks yard = (List.range 4096).drop 5 ++ (List.range 4096).take 5 := by
      rw [← e]; simp only [allBlocks, yard]
    rw [h]
    exact List.perm_append_comm.trans (by rw [List.take_append_drop]; exact List.Perm.refl _)
  · intro f h; cases h; exact ⟨_, rfl, rfl, rfl⟩
  · intro b h; cases h; exact ⟨_, rfl, rfl, rfl⟩
  · intro b h; cases h
    intro d hd; simp at hd; subst hd; exact ⟨_, rfl, rfl, rfl⟩
  · intro j h; cases h
  · intro o r h hl
    have := key_of_look _ _ _ h
    simp [yard, keys] at this
    rcases this with rfl | rfl | rfl | rfl | rfl <;> cases h <;> exact ⟨rfl, rfl⟩

/-- PublishFareImageOutcome: unpaired fields; nothing staged; a staged image, with and without a reference on the old one. -/
theorem test_meets_PublishFare :
    (∀ k : ObjKind, ¬(1 = k.stream.code ∧ 2 = k.code)) ∧ Held (yardAsked (.publish 1 1)) 7 (.publish 1 1) ∧
    objectOf yard .fareImage .staged = none ∧
    (let s := { yard with objects := put yard.objects 4 (object .fareImage 6 1000 4 .staged 0) };
      objectOf s .fareImage .staged = some 4 ∧ s.fare = some ⟨5, 0⟩ ∧ (look s.objects 0).map ContentObject.refs = some 0) := by
  refine ⟨fun k => by cases k <;> decide, rfl, by decide +kernel, by decide +kernel⟩

/-- PublishDeltaOutcome, PublishBaseOutcome: nothing staged, a delta that follows H and one that does not, a first and a later base, a
staged delta at and above the base, a merge whose target is reached and one whose target is not. -/
theorem test_meets_PublishBlock :
    Held (yardAsked (.publish 2 3)) 7 (.publish 2 3) ∧ objectOf State.reset .delta .staged = none ∧
    (objectOf yard .delta .staged = some 3 ∧ (look yard.objects 3).map ContentObject.generation = some (41 + 1) ∧
      (yard.block).map BlockRecord.head = some 41) ∧
    (look ({ yard with block := some ⟨40, 42, 1, [2]⟩ } : State).objects 3).map ContentObject.generation ≠ some (42 + 1) ∧
    objectOf yard .base .staged = none ∧
    (let s := { yard with objects := yard.objects ++ [(5, object .base 42 700 5 .staged 0)] };
      objectOf s .base .staged = some 5 ∧ generationOf s 3 ≤ 42 ∧ generationOf s 2 ≤ 42) ∧
    (let s := { yard with objects := yard.objects ++ [(5, object .base 40 700 5 .staged 0)] };
      40 < generationOf s 2 ∧ 40 < generationOf s 3) ∧ (42 ≤ 42 ∧ 41 < 42) := by
  refine ⟨rfl, by decide +kernel, by decide +kernel, by decide +kernel, by decide +kernel, by decide +kernel, by decide +kernel,
    by decide⟩

/-- PublishRecomputesEveryValidator: a publish of the delta that is carried out. -/
theorem test_meets_PublishRecomputes :
    (after .publishDelta (yardAsked (.publish 2 3))).map (fun t => t.host.replyPlace) =
      some (some ⟨0x87, 7, .ok, [5, 0, 40, 0, 42, 0, 255, 0, 0]⟩) ∧ (yardAsked (.publish 2 3)).host.replyPlace = none := by
  decide +kernel

/-- The yard without a published image, a staged one of generation 6, and a first validator that holds generation 9. -/
def yardFirstImage : State :=
  loud { yard with
    objects := put yard.objects 4 (object .fareImage 6 1000 4 .staged 0), fare := none
    validators := [(0, { validator 9001 1 (some 0) [2] 1 with heldFare := some 9, heldBlock := some 41 }),
      (1, validator 9002 2 (some 0) [2, 0] 1)] }

/-- The yard with a staged base of generation 42 and a merge towards 41 that it reaches. -/
def yardReached : State :=
  loud { yard with
    objects := yard.objects ++ [(5, object .base 42 700 5 .staged 0), (8, object .base 41 100 6 .building 0)]
    merge := some ⟨8, 41, [1, 2], 3, 0⟩ }

/-- A request in the processor touches no block, no record and no roster. -/
theorem safe_ask (q : Request) (s : State) (h : BlocksOk s ∧ RecordsOk s ∧ RosterOk s) :
    BlocksOk (ask q s) ∧ RecordsOk (ask q s) ∧ RosterOk (ask q s) :=
  ⟨h.1, ⟨h.2.1.fare, h.2.1.base, h.2.1.chain, h.2.1.result, h.2.1.loading⟩, h.2.2⟩

/-- PublishRecomputesEveryValidator, the reports: a first published image below a held generation, which sets the AHEAD flag and leaves that
validator current, and not the other; a first published base below a held generation; a base that ends a merge and frees objects; a publish
in a state whose blocks and records are in order, that ends no merge. -/
theorem test_meets_PublishReports :
    ((after .publishFareImage (ask (.publish 1 1) yardFirstImage)).map (fun t =>
      (queued t, t.validators.map (fun p => (p.2.work, p.2.flags.ahead)))) =
        some ([.genAhead 9001 .fare 9 6, .validatorCurrent 9001 318 (some 9) (some 41)], [([], true), ([2, 4], false)])) ∧
    (let s := { yardReached with block := none, merge := none, validators := [(0, { validator 9001 1 (some 0) [2] 1 with heldBlock := some 50 })] };
      (after .publishBase (ask (.publish 2 2) s)).map (fun t => (queued t, t.validators.map (fun p => (p.2.work, p.2.flags.ahead)))) =
        some ([.genAhead 9001 .block 50 42], [([0], true)])) ∧
    ((after .publishBase (ask (.publish 2 2) yardReached)).map (fun t => (queued t, t.merge)) =
      some ([.mergeFailed 8 41 .superseded 3, .objectRetired 1 .base 40, .objectRetired 2 .delta 41], none)) ∧
    ((BlocksOk (yardAsked (.publish 2 3)) ∧ RecordsOk (yardAsked (.publish 2 3)) ∧ RosterOk (yardAsked (.publish 2 3))) ∧
      ∃ r, look (yardAsked (.publish 2 3)).objects 0 = some r ∧ r.state = .published) :=
  ⟨by decide +kernel, by decide +kernel, by decide +kernel,
    safe_ask _ _ ⟨test_yard_safe.1, test_yard_safe.2.1, test_yard_safe.2.2.1⟩, _, rfl, rfl⟩

/-- The yard with a staged base of generation 42, a transaction of its slot in flight, and a merge towards `target`, of which a RETIRING
delta is a source too; the published delta has two references. -/
def yardRebased (target : Nat) : State :=
  loud { yardFlight (.slot 0 false) with
    pool := (List.range 4096).drop 6
    objects := [(0, object .fareImage 5 1000 0 .published 0), (1, object .base 40 700 1 .published 1),
      (2, object .delta 41 1000 2 .published 2), (5, object .base 42 700 3 .staged 0), (7, object .delta 39 900 4 .retiring 1),
      (8, object .base 41 100 5 .building 0)]
    merge := some ⟨8, target, [1, 2, 7], 3, 0⟩ }

/-- A state whose objects lie in the first blocks, the rest being free, has its blocks accounted for. -/
theorem blocksOk_prefix (s : State) (n : Nat) (h : tableWf Config.objectEntries 0 s.objects = true)
    (ho : s.objects.flatMap (fun p => p.2.blocks) = (List.range 4096).take n) (hp : s.pool = (List.range 4096).drop n) : BlocksOk s := by
  refine ⟨h, ?_⟩
  rw [allBlocks, ho, hp]
  exact List.perm_append_comm.trans (by rw [List.take_append_drop]; exact List.Perm.refl _)

/-- PublishBaseOutcome and PublishFareImageOutcome: a later base over a merge, and a staged image, in states whose blocks and records are in
order. -/
theorem test_meets_PublishHypotheses :
    (∀ target, BlocksOk (yardRebased target) ∧ RecordsOk (yardRebased target) ∧ objectOf (yardRebased target) .base .staged = some 5) ∧
    (let s := { yard with objects := put yard.objects 4 (object .fareImage 6 1000 4 .staged 0) };
      BlocksOk s ∧ RecordsOk s ∧ objectOf s .fareImage .staged = some 4) := by
  have h0 : (yardRebased 0).objects.flatMap (fun p => p.2.blocks) = (List.range 4096).take 6 := by decide +kernel
  refine ⟨fun target => ⟨blocksOk_prefix _ 6 rfl h0 (by simp only [yardRebased, loud]), ⟨?_, ?_, ?_, ?_, ?_⟩, rfl⟩,
    blocksOk_prefix _ 5 (by decide +kernel) (by decide +kernel) (by simp only [yard]), ⟨?_, ?_, ?_, ?_, ?_⟩, by decide +kernel⟩
  · intro f h; cases h; exact ⟨_, rfl, rfl, rfl⟩
  · intro b h; cases h; exact ⟨_, rfl, rfl, rfl⟩
  · intro b h; cases h
    intro d hd; simp at hd; subst hd; exact ⟨_, rfl, rfl, rfl⟩
  · intro j h; cases h; exact ⟨_, rfl, rfl, rfl⟩
  · intro o r h hl
    have := key_of_look _ _ _ h
    simp [yardRebased, loud, keys] at this
    rcases this with rfl | rfl | rfl | rfl | rfl | rfl <;> cases h <;> exact ⟨rfl, rfl⟩
  · intro f h; cases h; exact ⟨_, rfl, rfl, rfl⟩
  · intro b h; cases h; exact ⟨_, rfl, rfl, rfl⟩
  · intro b h; cases h
    intro d hd; simp at hd; subst hd; exact ⟨_, rfl, rfl, rfl⟩
  · intro j h; cases h
  · intro o r h hl
    have := key_of_look _ _ _ h
    have hk : ∀ k ∈ keys (put yard.objects 4 (object .fareImage 6 1000 4 .staged 0)), k < 5 := by decide +kernel
    have ho := hk o this
    have : o = 0 ∨ o = 1 ∨ o = 2 ∨ o = 3 ∨ o = 4 := by omega
    rcases this with rfl | rfl | rfl | rfl | rfl <;> cases h <;> exact ⟨rfl, rfl⟩

/-- The publishes and the slots: a base that retires the slot's object, which takes ABANDON, its transaction in flight acting on the error
count alone; with the merge ended the old base and the RETIRING source are freed and the delta waits RETIRING for the slot's reference, with
the merge running on all three stay; a slot at CLOSE stays as it is; the reply of a first base. -/
theorem test_meets_PublishSlots :
    (∀ g ∈ [42, 43], (after .publishBase (ask (.publish 2 2) (yardRebased g))).map (fun t =>
      ((t.slot 0).binding.map (fun b => (b.step, b.state, b.superseded)), (t.lane 3).transaction.map Transaction.owner)) =
        some (some (.abandon, .send, true), some (.slot 0 true))) ∧
    ((after .publishBase (ask (.publish 2 2) (yardRebased 42))).map (fun t =>
      [0, 1, 2, 7, 8].map (fun d => (look t.objects d).map (fun r => (r.state, r.refs)))) =
        some [some (.published, 0), none, some (.retiring, 1), none, none]) ∧
    ((after .publishBase (ask (.publish 2 2) (yardRebased 43))).map (fun t =>
      [0, 1, 2, 7, 8].map (fun d => (look t.objects d).map (fun r => (r.state, r.refs)))) =
        some [some (.published, 0), some (.retiring, 1), some (.retiring, 2), some (.retiring, 1), some (.building, 0)]) ∧
    ((after .publishBase (ask (.publish 2 2) { yardRebased 42 with slots := (yardSlot (bound .send .close)).slots })).map (fun t =>
      ((t.slot 0).binding.map (fun b => (b.step, b.state, b.superseded)), (t.lane 3).transaction.map Transaction.owner)) =
        some (some (.close, .send, false), some (.slot 0 false))) ∧
    ((after .publishBase (ask (.publish 2 2) { yardRebased 42 with block := none, merge := none })).map (fun t => t.host.replyPlace) =
      some (some ⟨0x87, 7, .ok, [5, 0, 42, 0, 42, 0, 255, 0, 0]⟩)) ∧
    (yardRebased 42).merge.map (fun j => j.sources.count 2) = some 1 :=
  ⟨by decide +kernel, by decide +kernel, by decide +kernel, by decide +kernel, by decide +kernel, by decide +kernel⟩

/-- BaseContentCheck and DeltaApplication: entries of both kinds, in order, and a table in order. -/
theorem test_meets_blocklist :
    tableWf (2 ^ 64) 0 [(5, 1), (9, 2)] = true ∧
    ([⟨1, 5, 3⟩, ⟨2, 7, 0⟩, ⟨2, 9, 0⟩] : List BlockEntry).Pairwise (fun a b => a.card < b.card) ∧
    (∀ e ∈ ([⟨1, 5, 3⟩, ⟨2, 7, 0⟩, ⟨2, 9, 0⟩] : List BlockEntry), e.card < 2 ^ 64 ∧ (e.action = 1 ∨ e.action = 2)) ∧
    applyDelta ([(5, 1), (9, 2)], []) [⟨1, 5, 3⟩, ⟨2, 7, 0⟩, ⟨2, 9, 0⟩] = ([(5, 3)], [7]) := by decide +kernel

/-- MergeStart: no delta; a merge that runs; a staged base, no entry, too few blocks; room. -/
theorem test_meets_MergeStart :
    Held (yardAsked .merge) 7 .merge ∧ (∀ b, ({ yard with block := some ⟨40, 40, 1, []⟩ } : State).block = some b → b.head = b.base) ∧
    (∃ b, yard.block = some b ∧ b.head ≠ b.base ∧ yard.merge = none ∧ (∃ r, look yard.objects b.baseObject = some r)) ∧
    ({ yard with merge := some ⟨8, 41, [1, 2], 0, 0⟩ } : State).merge ≠ none ∧
    objectOf { yard with objects := yard.objects ++ [(5, object .base 42 700 5 .staged 0)] } .base .staged ≠ none ∧
    objectOf yard .base .staged = none ∧ unusedObject yard = some 5 ∧ 1 ≤ yard.pool.length ∧ ({ yard with pool := [] } : State).pool.length < 1 := by
  refine ⟨rfl, fun b h => by cases h; rfl, ⟨_, rfl, by decide, rfl, ⟨_, rfl⟩⟩, by decide, by decide +kernel, by decide +kernel,
    by decide +kernel, by decide +kernel, by decide⟩

/-- A running merge of a base of one entry and no delta into object 8. -/
def merging : State :=
  { yardLoaded .base 50 25 (crc32 loadedBase) with
    objects := [(7, ⟨.base, 50, 25, crc32 loadedBase, 25, [9], some 1, none, .published, 1, none⟩),
      (8, ⟨.base, 50, 25, 0, 0, [10], none, none, .building, 0, none⟩)]
    merge := some ⟨8, 50, [7], 0, 0⟩ }

/-- MergeProgressWritesEntries and MergeEnds: the one entry of a small merge, with and without a staged base. -/
theorem test_meets_merge :
    (∃ j r, merging.merge = some j ∧ look merging.objects j.result = some r ∧ mergedState merging j = ([(77, 3)], []) ∧
      0 < 1 ∧ j.entriesWritten + 1 ≤ (mergedState merging j).1.length ∧ j.entriesWritten + 1 ≤ 349523 ∧ (∀ b ∈ r.blocks, b < 4096) ∧
      16 + 9 * (j.entriesWritten + 1) ≤ 1024 * r.blocks.length) ∧
    objectOf merging .base .staged = none ∧
    objectOf { merging with objects := merging.objects ++ [(9, object .base 60 100 11 .staged 0)] } .base .staged ≠ none :=
  ⟨⟨_, _, rfl, rfl, by decide +kernel, by decide, by decide +kernel, by decide, by decide, by decide⟩, by decide +kernel,
    by decide +kernel⟩

/-- The content bytes of a delta that adds card 5, removes card 77 and removes card 99. -/
def smallDelta : List Byte := deltaHeader 51 3 1 ++ deltaEntry 1 5 3 ++ deltaEntry 2 77 0 ++ deltaEntry 2 99 0

/-- The running merge with that delta as its second source, in block 11. -/
def mergingDelta : State :=
  let d : ContentObject := ⟨.delta, 51, 46, 0, 46, [11], some 3, some 1, .published, 1, none⟩
  { merging with
    content := (writeObject d 0 smallDelta merging.content).getD []
    objects := merging.objects ++ [(9, d)]
    merge := some ⟨8, 51, [7, 9], 0, 0⟩ }

/-- DeltaApplication, the target state of a merge: a base and a delta, both in use; the card of the base is gone, the added one is there, and
the third entry is a void removal. -/
theorem test_meets_mergedState :
    (∃ j b d, mergingDelta.merge = some j ∧ j.sources = 7 :: [9] ∧ look mergingDelta.objects 7 = some b ∧
      [9].map (look mergingDelta.objects) = [d].map some ∧ b.entryCount = some 1 ∧ d.entryCount = some 3) ∧
    mergingDelta.merge.map (mergedState mergingDelta) = some ([(5, 3)], [99]) ∧ ofBase [⟨1, 5, 3⟩, ⟨1, 9, 2⟩] = [(5, 3), (9, 2)] :=
  ⟨⟨_, _, _, rfl, rfl, rfl, rfl, rfl, rfl⟩, by decide +kernel, by decide +kernel⟩

/-- The merge with its one entry written. -/
def merged : State :=
  { merging with
    content := (writeObject ⟨.base, 50, 25, 0, 0, [10], none, none, .building, 0, none⟩ 16 (loadedBase.drop 16) merging.content).getD []
    merge := some ⟨8, 50, [7], 1, 0⟩ }

/-- MERGE_COMPLETE stages the result with its bytes; before the entry is written, and MERGE_TOO_LARGE at either point, nothing happens. -/
theorem test_mergeComplete :
    (after .mergeComplete merged).map (fun t => ((look t.objects 8).map (fun r => (r.state, r.received, r.entryCount)),
      (look t.objects 8).map (fun r => objectBytes t.content r 0 25), t.merge)) =
      some (some (.staged, 25, some 1), some loadedBase, none) ∧
    (after .mergeComplete merging).map State.merge = some merging.merge ∧
    (after .mergeTooLarge merging).map State.merge = some merging.merge := by decide +kernel

/-- The bytes of a memory from an address on. -/
def cells : Nat → List Byte → Memory
  | _, [] => []
  | k, b :: bs => (k, b) :: cells (k + 1) bs

theorem look_cells (bs : List Byte) : ∀ k i : Nat, look (cells k bs) (k + i) = bs[i]? := by
  induction bs with
  | nil => intro k i; rfl
  | cons b bs ih =>
    intro k i
    cases i with
    | zero => simp [cells, look]
    | succ i =>
      have h : ¬k = k + (i + 1) := by omega
      simp only [cells, look, h, if_false, List.getElem?_cons_succ]
      rw [show k + (i + 1) = k + 1 + i by omega]; exact ih (k + 1) i

/-- An object that lies in the first blocks of a memory holds the bytes there. -/
theorem objectBytes_cells (bs : List Byte) (r : ContentObject) (n : Nat) (hr : r.blocks = List.range n) (hn : n ≤ 4096)
    (hb : bs.length ≤ 1024 * n) : objectBytes (cells 0 bs) r 0 bs.length = bs := by
  apply List.ext_getElem?
  intro i
  by_cases hi : i < bs.length
  · have h1 : i / 1024 < n := by omega
    have h2 : byteAddress r (0 + i) = some i := by
      have h3 : r.blocks[i / 1024]? = some (i / 1024) := by rw [hr]; simp [h1]
      have h4 : i / 1024 < 4096 := by omega
      simp only [Nat.zero_add, byteAddress, Config.blockSize, h3, Config.blocks, h4, if_true, Option.some.injEq]
      omega
    have h5 : look (cells 0 bs) i = bs[i]? := by simpa using look_cells bs 0 i
    simp [objectBytes, hi, objectByte, byteAddress, readByte] at h2 ⊢
    simp [h2, h5, List.getElem?_eq_getElem hi]
  · simp [objectBytes, hi]

theorem leNat_leBytes (n : Nat) : ∀ v : Nat, v < 256 ^ n → leNat (leBytes n v) = v := by
  induction n with
  | zero => intro v h; simp at h; simp [leBytes, leNat, h]
  | succ n ih =>
    intro v h
    have h2 : v / 256 < 256 ^ n := Nat.div_lt_of_lt_mul (by rw [Nat.pow_succ] at h; omega)
    simp only [leBytes, leNat, ih _ h2, BitVec.toNat_ofNat]
    omega

theorem length_leBytes (n : Nat) : ∀ v : Nat, (leBytes n v).length = n := by
  induction n with
  | zero => intro v; rfl
  | succ n ih => intro v; simp [leBytes, ih]

/-- The cards 0 to n - 1, each with the reason 3, as base entries. -/
def manyEntries (n : Nat) : List Byte := (List.range n).flatMap (fun i => leBytes 8 i ++ [3])

theorem split_flatMap (f : Nat → List Byte) (hf : ∀ i, (f i).length = 9) (ids : List Nat) :
    splitRecords 9 ids.length (ids.flatMap f) = ids.map f := by
  induction ids with
  | nil => rfl
  | cons i ids ih => simp [splitRecords, hf, ih]

theorem put_last {α : Type} (k : Nat) (a : α) : ∀ t : Table α, (∀ p ∈ t, p.1 < k) → put t k a = t ++ [(k, a)] := by
  intro t
  induction t with
  | nil => intro _; rfl
  | cons p t ih =>
    intro h
    obtain ⟨i, b⟩ := p
    have h1 : i < k := h (i, b) (by simp)
    have h2 : ¬k < i := by omega
    have h3 : ¬k = i := by omega
    simp [put, h2, h3, ih (fun q hq => h q (by simp [hq]))]

theorem ofBase_many (n : Nat) : ofBase ((List.range n).map (fun i => ⟨1, i, 3⟩)) = (List.range n).map (fun i => (i, 3)) := by
  induction n with
  | zero => rfl
  | succ n ih =>
    rw [List.range_succ, List.map_append, ofBase, List.foldl_append]
    rw [ofBase] at ih
    rw [ih]
    simp only [List.map_cons, List.map_nil, List.foldl_cons, List.foldl_nil]
    rw [put_last _ _ _ (by simp), List.map_append]; rfl

/-- A merge of one base of n entries, of which some are written, in objects with the same blocks. -/
def mergingMany (n written : Nat) (blocks : List Nat) : State :=
  { yard with
    content := cells 0 (List.replicate 16 0 ++ manyEntries n)
    objects := [(7, ⟨.base, 50, 16 + 9 * n, 0, 16 + 9 * n, blocks, some n, none, .published, 1, none⟩),
      (8, ⟨.base, 50, 3145728, 0, 0, blocks, none, none, .building, 0, none⟩)]
    merge := some ⟨8, 50, [7], written, 0⟩ }

/-- The target state of such a merge has its n cards. -/
theorem length_mergingMany (n written : Nat) (blocks : List Nat) (hb : blocks = List.range 4096) (h : n ≤ 400000) :
    (mergedState (mergingMany n written blocks) ⟨8, 50, [7], written, 0⟩).1.length = n := by
  have hl : (List.replicate 16 (0 : Byte) ++ manyEntries n).length = 16 + 9 * n := by
    rw [List.length_append, List.length_replicate]
    simp [manyEntries, List.length_flatMap, length_leBytes, Nat.mul_comm]
  have hb := objectBytes_cells (List.replicate 16 0 ++ manyEntries n)
    ⟨.base, 50, 16 + 9 * n, 0, 16 + 9 * n, blocks, some n, none, .published, 1, none⟩ 4096 hb (by omega) (by omega)
  rw [hl] at hb
  have hs : splitRecords 9 n (manyEntries n) = (List.range n).map (fun i => leBytes 8 i ++ [3]) := by
    have := split_flatMap (fun i => leBytes 8 i ++ [3]) (by simp [length_leBytes]) (List.range n)
    rwa [List.length_range] at this
  have hm : ∀ i ∈ List.range n, blockEntry .base (leBytes 8 i ++ [3]) = ⟨1, i, 3⟩ := by
    intro i hi
    have h1 : leNat (leBytes 8 i) = i := leNat_leBytes 8 i (by have := List.mem_range.1 hi; omega)
    have h2 : (leBytes 8 i ++ [(3 : Byte)]).take 8 = leBytes 8 i := by
      rw [List.take_append_of_le_length (by simp [length_leBytes]), List.take_of_length_le (by simp [length_leBytes])]
    have h3 : (leBytes 8 i ++ [(3 : Byte)]).drop 8 = [3] := by
      rw [List.drop_append_of_le_length (by simp [length_leBytes]), List.drop_of_length_le (by simp [length_leBytes])]; rfl
    rw [blockEntry, field, field, List.drop_zero, h2, h3, h1]; rfl
  have he : objectsAt (mergingMany n written blocks) [7] =
    [⟨.base, 50, 16 + 9 * n, 0, 16 + 9 * n, blocks, some n, none, .published, 1, none⟩] := rfl
  have hr : (storedEntries (mergingMany n written blocks).content
      ⟨.base, 50, 16 + 9 * n, 0, 16 + 9 * n, blocks, some n, none, .published, 1, none⟩) = (List.range n).map (fun i => ⟨1, i, 3⟩) := by
    rw [storedEntries, show (mergingMany n written blocks).content = cells 0 (List.replicate 16 0 ++ manyEntries n) from rfl, hb,
      blockEntries, List.drop_append_of_le_length (by simp), List.drop_of_length_le (by simp), List.nil_append]
    rw [Option.getD_some, show entryWidth .base = 9 from rfl, hs, List.map_map]
    exact List.map_congr_left hm
  rw [mergedState, he]
  simp only [List.foldl_nil]
  rw [hr, ofBase_many, List.length_map, List.length_range]

/-- MergeEnds at its boundary: 349,523 entries written of 349,524 and of 349,523, and a small merge with its entry written. -/
theorem test_meets_mergeBoundary :
    (∀ n ∈ [349523, 349524], ∃ s j r, s.merge = some j ∧ look s.objects j.result = some r ∧
      j.entriesWritten = 349523 ∧ (mergedState s j).1.length = n ∧ (∀ b ∈ r.blocks, b < 4096) ∧
      16 + 9 * 349523 ≤ 1024 * r.blocks.length) ∧
    (349523 < 349524 ∧ 349523 ≤ 349523) ∧
    (∃ j r, merged.merge = some j ∧ look merged.objects j.result = some r ∧ j.entriesWritten = 1 ∧
      (mergedState merged j).1.length = 1) := by
  have h : ∀ n ≤ 400000, ∀ blocks, blocks = List.range 4096 → ∃ s j r, s.merge = some j ∧ look s.objects j.result = some r ∧
      j.entriesWritten = 349523 ∧ (mergedState s j).1.length = n ∧ (∀ b ∈ r.blocks, b < 4096) ∧
      16 + 9 * 349523 ≤ 1024 * r.blocks.length := by
    intro n hn blocks hb
    refine ⟨mergingMany n 349523 blocks, ⟨8, 50, [7], 349523, 0⟩, _, rfl, rfl, rfl, length_mergingMany n _ _ hb hn, ?_, ?_⟩
    · intro b h; exact List.mem_range.1 (hb ▸ h)
    · show 16 + 9 * 349523 ≤ 1024 * blocks.length
      rw [hb, List.length_range]; decide
  refine ⟨fun n hn => h n ?_ _ rfl, by omega, ⟨_, _, rfl, rfl, rfl, by decide +kernel⟩⟩
  simp at hn; omega

/-- A full vehicle table, of DEPARTED vehicles or of PRESENT ones. -/
def fullVehicles (st : VehicleState) : Table Vehicle := (List.range 256).map (fun v => (v, ⟨v + 1, 3, st, none, [], v, 0, 0⟩))

/-- ExpectVehicleOutcome: numbers 0 and 65,535, lane 6; an OFF lane; a known vehicle on the lane and on another; the lowest unused entry;
a full table with and without a vehicle to evict. -/
theorem test_meets_ExpectVehicle :
    Held (yardAsked (.expectVehicle 318 3 0)) 7 (.expectVehicle 318 3 0) ∧ (65535 : Nat) ≤ 65535 ∧ (65534 : Nat) < 65535 ∧ (6 : Nat) ≤ 6 ∧
    (yard.lane 2).state = .off ∧ (yard.lane 3).state ≠ .off ∧ vehicleAt yard 318 = some 0 ∧
    (look yard.vehicles 0).map Vehicle.lane = some 3 ∧ vehicleAt yard 9 = none ∧ lowestUnused 0 yard.vehicles = 3 ∧
    (let s := { yard with vehicles := fullVehicles .departed };
      vehicleAt s 999 = none ∧ 256 ≤ lowestUnused 0 s.vehicles ∧ (vehicleToEvict s).map Prod.fst = some 0) ∧
    (let s := { yard with vehicles := fullVehicles .present }; vehicleToEvict s = none ∧ 256 ≤ lowestUnused 0 s.vehicles) := by
  refine ⟨rfl, ?_⟩; decide +kernel

/-- DepartureRequests and DepartureEffects: a vehicle without bound slots, with and without validators behind. -/
theorem test_meets_departures :
    Held (yardAsked (.setDeparture 318 9)) 7 (.setDeparture 318 9) ∧ Held (yardAsked (.departVehicle 77)) 7 (.departVehicle 77) ∧
    vehicleAt yard 9 = none ∧ vehicleAt yard 77 = some 1 ∧ (∃ r, look yard.vehicles 1 = some r ∧ r.state ≠ .departed) ∧
    (∃ (s : State) (v : Nat) (r : Vehicle), look s.vehicles v = some r ∧ r.state = .departed) ∧
    (∃ r, look yard.vehicles 0 = some r ∧ r.validators.filterMap (fun i => (look yard.validators i).bind
      (fun x => if 0 < x.lag then some (i, x.serial, x.lag) else none)) = [(0, 9001, 1), (1, 9002, 1)]) ∧
    (∀ k b, (({ yard with slots := State.reset.slots } : State).slot k).binding = some b → b.vehicle ≠ 0) := by
  refine ⟨rfl, rfl, by decide +kernel, by decide +kernel, ⟨_, rfl, by decide⟩,
    ⟨{ yard with vehicles := fullVehicles .departed }, 0, _, rfl, rfl⟩, ⟨_, rfl, by decide +kernel⟩, ?_⟩
  have h : ∀ k, (({ yard with slots := State.reset.slots } : State).slot k).binding = none := by decide +kernel
  intro k b hb; rw [h k] at hb; cases hb

/-- DepartureEffects with a bound slot: its end comes first, then VEHICLE_GONE, then MISSED_DEPARTURE with the MISSED flags; and a vehicle with
no validator behind. -/
theorem test_meets_departureOfBound :
    (∃ b, (yard.slot 0).binding = some b ∧ b.vehicle = 0) ∧ (look (endVehicleSlots 0 .vehicleGone yard).vehicles 0).isSome = true ∧
    (let t := depart 0 .request (loud yard);
      queued t = [yardEnded 2 .delta 41 .vehicleGone, .vehicleGone 318 3 .present .request, .missedDeparture 318 [(9001, 1), (9002, 1)]] ∧
      t.slot 0 = ⟨none, .vehicleGone, false⟩ ∧ t.validators.map (fun p => p.2.flags.missed) = [true, true]) ∧
    queued (depart 1 .request (loud yard)) = [.vehicleGone 77 3 .asleep .request] :=
  ⟨⟨_, rfl, rfl⟩, by decide +kernel, by decide +kernel, by decide +kernel⟩

/-- ClockAndSilence: the last count but one and the last; time unset; an age at the limit and one below. -/
theorem test_meets_clock :
    yard.clock.count < 4294967295 ∧ ({ yard with clock := ⟨4294967295, false, 0⟩ } : State).clock.count = 4294967295 ∧
    State.reset.clock.unset = true ∧ yard.clock.unset = false ∧
    (∃ r, look yard.vehicles 0 = some r ∧ r.state = .present ∧ yard.silenceApplied ≤ yard.clock.count - r.lastHeard) ∧
    (∃ r, look yard.vehicles 0 = some r ∧
      ({ yard with clock := ⟨219, false, 0⟩ } : State).clock.count - r.lastHeard < yard.silenceApplied) :=
  ⟨by decide, rfl, rfl, rfl, ⟨_, rfl, rfl, by decide⟩, ⟨_, rfl, by decide⟩⟩

/-- ClockAndSilence, the check of every vehicle: in a roster in order with time set, the limit reached and not; 318 departs, 77 stays. -/
theorem test_meets_silenceCheckAll :
    RosterOk yard ∧ yard.clock.unset = false ∧
    (∃ r, look yard.vehicles 0 = some r ∧ r.state = .present ∧ yard.policy.silenceLimit ≤ yard.clock.count - r.lastHeard) ∧
    (∃ r, look yard.vehicles 1 = some r ∧ r.state ≠ .present) ∧
    (let t := { yard with clock := ⟨219, false, 0⟩ }; ∃ r, look t.vehicles 0 = some r ∧ t.clock.count - r.lastHeard = 119 ∧
      t.policy.silenceLimit = 120) ∧
    ((keys yard.vehicles).map (fun v => (look (silenceCheckAll yard).vehicles v).map Vehicle.state)) =
      [some .departed, some .asleep, some .expected] := by
  refine ⟨test_yard_safe.2.2.1, rfl, ⟨_, rfl, rfl, by decide⟩, ⟨_, rfl, by decide⟩, ⟨_, rfl, rfl, rfl⟩, by decide +kernel⟩

/-- Eviction: of two DEPARTED vehicles heard at one time and an older PRESENT one, the lower; of validators, a detached one before one under
a DEPARTED vehicle, and with none detached that one; none when each is bound or its vehicle is not DEPARTED. -/
theorem test_meets_eviction :
    (let s := { yard with vehicles := [(3, ⟨9, 3, .present, none, [], 1, 0, 0⟩), (4, ⟨7, 3, .departed, none, [], 5, 0, 0⟩),
        (6, ⟨8, 3, .unreachable, none, [], 5, 0, 0⟩)] };
      RosterOk s ∧ (vehicleToEvict s).map Prod.fst = some 4) ∧
    (let departed := { yard with vehicles := put yard.vehicles 0 ⟨318, 3, .departed, some 3000, [0, 1], 100, 0, 1⟩ };
      RosterOk departed ∧ (∀ j ∈ keys departed.validators, ∃ x, look departed.validators j = some x ∧
        (x.vehicle ≠ none ∨ x.boundSlot ≠ none)) ∧ (validatorToEvict departed).map Prod.fst = some 1) ∧
    (let detached := { yard with validators := yard.validators ++ [(2, validator 9003 1 none [] 0)] };
      RosterOk detached ∧ (∃ x, look detached.validators 2 = some x ∧ x.vehicle = none ∧ x.boundSlot = none) ∧
        (validatorToEvict detached).map Prod.fst = some 2) ∧
    (validatorToEvict yard).isNone = true := by
  refine ⟨⟨⟨by decide +kernel, by decide +kernel⟩, by decide +kernel⟩, ⟨⟨by decide +kernel, by decide +kernel⟩, ?_, by decide +kernel⟩,
    ⟨⟨by decide +kernel, by decide +kernel⟩, ⟨_, rfl, rfl, rfl⟩, by decide +kernel⟩, by decide +kernel⟩
  intro j hj
  have : j = 0 ∨ j = 1 := by simpa [keys, yard] using hj
  rcases this with rfl | rfl
  · exact ⟨_, rfl, Or.inl (by decide)⟩
  · exact ⟨_, rfl, Or.inl (by decide)⟩

/-- ReadRequestsReturnRecords and ListObjectsReadsTheCatalogue. -/
theorem test_meets_reads :
    Held (yardAsked (.readVehicle 318)) 7 (.readVehicle 318) ∧ Held (yardAsked (.readValidator 9001)) 7 (.readValidator 9001) ∧
    Held (yardAsked (.readRanking 1024 65)) 7 (.readRanking 1024 65) ∧ Held (yardAsked .readSlots) 7 .readSlots ∧
    Held (yardAsked (.readLane 5)) 7 (.readLane 5) ∧ Held (yardAsked .listObjects) 7 .listObjects ∧ vehicleAt yard 318 = some 0 ∧
    validatorAt yard 9001 = some 0 ∧ validatorAt yard 7 = none ∧ (yard.lane 5).state = .off ∧ (yard.lane 3).state ≠ .off :=
  ⟨rfl, rfl, rfl, rfl, rfl, rfl, by decide +kernel, by decide +kernel, by decide +kernel, by decide +kernel, by decide +kernel⟩

/-- ClearFlagsOutcome: selections 0, 1, 31 and 32; serial 0, a known and an unknown one. -/
theorem test_meets_ClearFlags :
    Held (yardAsked (.clearFlags 0 31)) 7 (.clearFlags 0 31) ∧ (32 : Nat) ≤ 32 ∧ (31 : Nat) < 32 ∧ (1 : Nat) ≤ 1 ∧
    validatorAt yard 7 = none ∧ validatorAt yard 9002 ≠ none := by
  refine ⟨rfl, ?_⟩; decide +kernel

/-- WorkListRule: no base; a held generation below B, at B and absent; a held fare generation below, at and absent. -/
theorem test_meets_WorkList :
    State.reset.block = none ∧ (∃ b, yard.block = some b ∧ 39 < b.base ∧ b.base ≤ 40) ∧ State.reset.fare = none ∧
    (∃ f, yard.fare = some f ∧ 4 < f.generation ∧ f.generation ≤ 5) ∧
    workList yard none (some 39) = [1, 2, 0] ∧ workList yard (some 5) (some 40) = [2] ∧ blockLag yard none = 2 := by
  refine ⟨rfl, ⟨_, rfl, by decide, by decide⟩, rfl, ⟨_, rfl, by decide, by decide⟩, ?_⟩; decide +kernel

/-- ClearFlagsOutcome and WorkListRule on one validator: a REJECTED flag that the selection takes makes a dispatch walk due and another
selection does not; held generations above the published ones, at them and as before. -/
theorem test_meets_held :
    (let v : Validator := { (validator 9001 1 (some 0) [2, 0] 1) with
        flags := ⟨false, false, false, true, false⟩ };
      let s : State := { yard with validators := [(0, v)] };
      (after .clearFlags (ask (.clearFlags 0 8) s)).map State.dispatchDue = some true ∧
      (after .clearFlags (ask (.clearFlags 9001 16) s)).map State.dispatchDue = some false) ∧
    (look yard.validators 0).map (fun v => (v.heldFare, v.heldBlock)) = some (none, some 40) ∧
    (writeHeld 0 (some 6) (some 42) yard).2 =
      [.genAhead 9001 .fare 6 5, .genAhead 9001 .block 42 41, .validatorCurrent 9001 318 (some 6) (some 42)] ∧
    (writeHeld 0 (some 5) (some 41) yard).2 = [.validatorCurrent 9001 318 (some 5) (some 41)] ∧
    (writeHeld 0 none (some 40) yard).2 = [] := by decide +kernel

/-- SetTimeSetsTheClock: time unset; set, with the same and with another count. -/
theorem test_meets_SetTime :
    Held (asked (.setTime 5)) 7 (.setTime 5) ∧ (asked (.setTime 5)).clock.unset = true ∧ (yardAsked (.setTime 1000)).clock.unset = false ∧
    1000 = (yardAsked (.setTime 1000)).clock.count ∧ 999 ≠ (yardAsked (.setTime 999)).clock.count := ⟨rfl, rfl, rfl, rfl, by decide⟩

/-- ScanStarts: an OFF lane; spent counts 4,095 and 4,096; an IDLE scanner at its period's end; a RUNNING one. -/
theorem test_meets_ScanStarts :
    (Lane.off false).state = .off ∧ (laneIn .active .service).state ≠ .off ∧ ({ laneIn .quiet .none with spent := 4095 } : Lane).spent < 4096 ∧
    4096 ≤ ({ laneIn .quiet .none with spent := 4096 } : Lane).spent ∧ yard.scanner.run = none ∧
    ({ yard with now := 5000000 } : State).scanner.periodEnd ≤ ({ yard with now := 5000000 } : State).now ∧
    (yardScan 0).scanner.run ≠ none ∧ Held (ask .scanNow (yardScan 0)) 7 .scanNow := by
  refine ⟨by decide, by decide, by decide, by decide, rfl, by decide +kernel, by decide +kernel, rfl⟩

/-- ScanEntryTurnOutcome and ClassRule: an unused entry at 1023; an entry without work; one on plan FULL and one on BLOCK_ONLY. -/
theorem test_meets_ScanEntryTurn :
    ((yardScan 2).scanner.run = some (scanRun 2) ∧ look (yardScan 2).validators 1023 = none ∧ (1023 : Nat) < 1024 ∧
      ∀ j v, look (yardScan 2).validators j = some v → j < (scanRun 2).cursor ∨ 1023 ≤ j) ∧
    (∀ j v, look (yardScan 1).validators j = some v → j < (scanRun 1).cursor ∨ 1 ≤ j) ∧
    (validator 9002 2 (some 0) [] 1).work = [] ∧
    (∃ v veh inp, look (yardScan 1).validators 1 = some v ∧ v.work ≠ [] ∧ v.vehicle.bind (look (yardScan 1).vehicles) = some veh ∧
      veh.state ≠ .departed ∧ (scanRun 1).inputs.get veh.lane = some inp ∧ veh.departure ≠ none ∧
      (planOf (yardScan 1) (scanRun 1) inp veh.departure v.work).1 = .full ∧
      (planOf (yardScan 1) (scanRun 1) inp (some 1060) v.work).1 = .blockOnly) ∧
    ((after (.scanEntryTurn 1) (yardScan 1)).bind (fun t => look t.validators 1)).map (fun v => (v.slack, v.cls)) =
      some (some 1939, 1) := by
  refine ⟨⟨rfl, by decide +kernel, by decide, fun j v h => ?_⟩, fun j v h => ?_, rfl,
    ⟨_, _, _, rfl, by decide, rfl, by decide, rfl, by decide, by decide +kernel, by decide +kernel⟩,
    by decide +kernel⟩
  · have := key_of_look _ _ _ h
    have h2 : ∀ j ∈ keys (yardScan 2).validators, j < 2 ∨ 1023 ≤ j := by decide +kernel
    exact h2 j this
  · have := key_of_look _ _ _ h
    have h2 : ∀ j ∈ keys (yardScan 1).validators, j < 1 ∨ 1 ≤ j := by decide +kernel
    exact h2 j this

/-- ScanCompleteOutcome. -/
theorem test_meets_ScanComplete : (yardScan 2).scanner.run = some (scanRun 2) ∧
    ∀ j v, look (yardScan 2).validators j = some v → j < (scanRun 2).cursor ∨ 1024 ≤ j := by
  refine ⟨rfl, fun j v h => ?_⟩
  have := key_of_look _ _ _ h
  have h2 : ∀ j ∈ keys (yardScan 2).validators, j < 2 ∨ 1024 ≤ j := by decide +kernel
  exact h2 j this

/-- DispatchWalkOutcome: no FREE slot; an empty list; the second entry bindable behind one that is bound, on a lane that runs. -/
theorem test_meets_DispatchWalk :
    yardRanked.dispatchDue = true ∧
    (∀ k, (({ yardRanked with slots := Vector.replicate 12 ⟨some (bound .send .opening), .none, false⟩ } : State).slot k).binding ≠ none) ∧
    (∀ e ∈ ({ yardRanked with scanner := yard.scanner } : State).scanner.ranked, ∀ v vi veh o r, ¬Bindable yardRanked e v vi veh o r) ∧
    (yardRanked.slot 1).binding = none ∧ (∀ j, j < 1 → (yardRanked.slot j).binding ≠ none) ∧
    yardRanked.scanner.ranked = [⟨0, 9001, 3, 1, 5, .full⟩] ++ ⟨1, 9002, 3, 1, 5, .full⟩ :: [] ∧
    (∀ e ∈ ([⟨0, 9001, 3, 1, 5, .full⟩] : List RankedEntry), ∀ v vi veh o r, ¬Bindable yardRanked e v vi veh o r) ∧
    (∃ v vi veh o r, Bindable yardRanked ⟨1, 9002, 3, 1, 5, .full⟩ v vi veh o r) := by
  refine ⟨rfl, by decide +kernel, ?_, by decide +kernel, by decide +kernel, by decide +kernel, ?_, ?_⟩
  · intro e he; simp [yard, withLane, State.reset, State.start] at he
  · intro e he v vi veh o r h
    simp at he; subst he
    have h1 : some { validator 9001 1 (some 0) [2, 0] 1 with boundSlot := some 0 } = some v := h.entry
    have h2 := h.unbound
    rw [← Option.some.inj h1] at h2; cases h2
  · refine ⟨_, 0, _, 2, _, ⟨rfl, rfl, by decide, rfl, rfl, rfl, rfl, by decide +kernel, rfl, by decide +kernel, by decide +kernel,
      fun _ => rfl, ?_, rfl, rfl⟩⟩
    intro h; cases h

/-- PutAndProbeOutcomes: a binding in SEND and in PROBE, at ABANDON and not, one error below the limit and at it, and the retirement of
its object and of another. -/
theorem test_meets_PutAndProbe :
    (∀ b, ((yardSlot b).slot 0).binding = some b) ∧ (bound .send .opening).state = .send ∧ (bound .probe .abandon).state = .probe ∧
    (bound .send .abandon).step = .abandon ∧ (bound .send .close).step ≠ .abandon ∧
    ({ bound .send .opening with errors := 3 } : Binding).errors + 1 < yard.policy.retryLimit ∧
    yard.policy.retryLimit ≤ ({ bound .send .opening with errors := 4 } : Binding).errors + 1 ∧
    (bound .send .opening).object = 2 ∧ (bound .send .opening).object ≠ 3 ∧ (bound .probe (.seg 3)).step ≠ .close ∧
    (bound .probe (.seg 3)).step ≠ .abandon ∧
    ((yardFlight (.slot 0 false)).lane (bound .send (.seg 0)).lane).transaction = some (inFlight (.slot 0 false)) :=
  ⟨fun _ => rfl, by decide +kernel⟩

/-- The yard with its published delta RETIRING instead, held by the slot alone. -/
def yardRetiring : State :=
  { yard with objects := put yard.objects 2 (object .delta 41 1000 2 .retiring 1), block := some ⟨40, 40, 1, []⟩ }

/-- FetchOutcomes: a binding in AWAIT at each step, the first and last segment, the object RETIRING and not, the last PENDING but one and
the last, one error below the limit and at it. -/
theorem test_meets_Fetch :
    (∀ b, ((yardSlot b).slot 0).binding = some b) ∧ (bound .await .opening).state = .await ∧
    (look yard.objects (bound .await (.seg 3)).object = some (object .delta 41 1000 2 .published 1)) ∧
    (2 + 1 < (bound .await (.seg 2)).segmentCount ∧ ¬3 + 1 < (bound .await (.seg 3)).segmentCount) ∧
    (bound .await .close).closeAttempts = 0 ∧ ({ bound .await .close with closeAttempts := 1 } : Binding).closeAttempts ≠ 0 ∧
    objectState yard (bound .await .close).object ≠ some .retiring ∧ objectState yardRetiring (bound .await .close).object = some .retiring ∧
    ({ bound .await .close with pendings := 4 } : Binding).pendings + 1 < yard.policy.pendingLimit ∧
    yard.policy.pendingLimit ≤ ({ bound .await .close with pendings := 5 } : Binding).pendings + 1 ∧
    ({ bound .await .close with errors := 3 } : Binding).errors + 1 < yard.policy.retryLimit ∧
    yard.policy.retryLimit ≤ ({ bound .await .close with errors := 4 } : Binding).errors + 1 :=
  ⟨fun _ => rfl, by decide +kernel⟩

/-- SlotEndOutcome: the yard's slot, with its object PUBLISHED, and RETIRING with one reference; a queue with room for the reports; a
transaction in flight. -/
theorem test_meets_SlotEnd :
    BlocksOk yard ∧ BlocksOk yardRetiring ∧
    (∃ b r v veh, (yard.slot 0).binding = some b ∧ look yard.objects b.object = some r ∧ look yard.validators b.validator = some v ∧
      look yard.vehicles b.vehicle = some veh ∧ ¬(r.state = .retiring ∧ r.refs ≤ 1)) ∧
    (∃ b r v veh, (yardRetiring.slot 0).binding = some b ∧ look yardRetiring.objects b.object = some r ∧
      look yardRetiring.validators b.validator = some v ∧ look yardRetiring.vehicles b.vehicle = some veh ∧
      r.state = .retiring ∧ r.refs ≤ 1) ∧
    ({ yard.policy with reportThreshold := 0 } : Policy).reportThreshold = 0 ∧ yard.host.queue.length + 5 ≤ 64 ∧
    ((yardFlight (.slot 0 false)).lane 3).transaction = some (inFlight (.slot 0 false)) := by
  refine ⟨test_yard_safe.1, ⟨by decide +kernel, ?_⟩, ⟨_, _, _, _, rfl, rfl, rfl, rfl, by decide⟩,
    ⟨_, _, _, _, rfl, rfl, rfl, rfl, rfl, by decide⟩, rfl, by decide +kernel, rfl⟩
  have e : yardRetiring.objects.flatMap (fun p => p.2.blocks) = yard.objects.flatMap (fun p => p.2.blocks) := by decide +kernel
  have h : allBlocks yardRetiring = allBlocks yard := by
    rw [allBlocks, allBlocks, e, show yardRetiring.pool = yard.pool by simp only [yardRetiring]]
  rw [h]; exact test_yard_safe.1.2

/-- SlotEndOutcome at DONE: a delta that brings the validator to H, an image above the published one, which sets the AHEAD flag with GEN_AHEAD,
and the last item of a list, with VALIDATOR_CURRENT; and a REFUSED end, which delivers nothing. -/
theorem test_meets_SlotEndDone :
    (let t := endSlot 0 .done false (loud (yardSlot (bound .await .close)));
      queued t = [yardEnded 2 .delta 41 .done] ∧ (look t.validators 0).map (fun v => (v.heldBlock, v.work)) = some (some 41, [0])) ∧
    (let s := loud { yardSlot { bound .await .close with object := 0 } with fare := some ⟨4, 0⟩ };
      let t := endSlot 0 .done false s;
      queued t = [yardEnded 0 .fareImage 5 .done, .genAhead 9001 .fare 5 4] ∧
        (look t.validators 0).map (fun v => (v.heldFare, v.flags.ahead)) = some (some 5, true)) ∧
    (let v : Validator := { validator 9001 1 (some 0) [2] 1 with heldFare := some 5, boundSlot := some 0 };
      queued (endSlot 0 .done false (loud { yardSlot (bound .await .close) with validators := [(0, v)] })) =
        [yardEnded 2 .delta 41 .done, .validatorCurrent 9001 318 (some 5) (some 41)]) ∧
    (let t := endSlot 0 .refused false (loud yard);
      queued t = [yardEnded 2 .delta 41 .refused] ∧ (look t.validators 0).map (fun v => v.flags.rejected) = some true) := by
  decide +kernel

/-- SlotEndOutcome, the slots that an event ends: of two bound slots the one of a lane, of a vehicle and of a validator. -/
theorem test_meets_SlotsEnded :
    (let other : Slot := ⟨some { bound .send .opening with lane := 2, vehicle := 1, validator := 1 }, .none, false⟩;
      let s := { yard with slots := (yard.slots.set 0 ⟨some (bound .send .opening), .none, false⟩).set 1 other };
      ∀ t ∈ [endLaneSlots 3 .laneReset s, endVehicleSlots 0 .laneReset s, endValidatorSlot 0 .laneReset s],
        t.slot 0 = ⟨none, .laneReset, false⟩ ∧ (t.slot 1) = s.slot 1) := by decide +kernel

/-- SlotEndOutcome and SetPolicyOutcome: the turn of one slot, in the end of many and at a new retry limit, is met by a function. -/
theorem test_meets_slotTurns (which : Binding → Bool) (c : EndCond) (limit : Nat) :
    (∃ one : State → SlotIx → State, (∀ t k, (∀ b, (t.slot k).binding = some b → which b = false) → one t k = t) ∧
      ∀ t k b, (t.slot k).binding = some b → which b = true → one t k = endSlot k c false t) ∧
    ∃ one : State → SlotIx → State, (∀ w k, (∀ b, (w.slot k).binding = some b → b.errors < limit) → one w k = w) ∧
      (∀ w k b, (w.slot k).binding = some b → limit ≤ b.errors → b.step = .abandon → one w k = endSlot k .superseded true w) ∧
      ∀ w k b, (w.slot k).binding = some b → limit ≤ b.errors → b.step ≠ .abandon → one w k = endSlot k .retryExhausted false w := by
  refine ⟨⟨fun t k => match (t.slot k).binding with
      | none => t
      | some b => if which b then endSlot k c false t else t, fun t k h => ?_, fun t k b hb hw => by simp [hb, hw]⟩,
    fun w k => endAtLimit limit w k, fun w k h => ?_, fun w k b hb hl ha => by simp [endAtLimit, endExhausted, hb, hl, ha],
    fun w k b hb hl ha => by simp [endAtLimit, endExhausted, hb, hl, ha]⟩
  · cases hb : (t.slot k).binding with
    | none => simp [hb]
    | some b => simp [hb, h b hb]
  · cases hb : (w.slot k).binding with
    | none => simp [endAtLimit, hb]
    | some b => simp [endAtLimit, hb, Nat.not_le.2 (h b hb)]

/-- SetPolicyOutcome: masks 511 and 512; a slot at the new limit and one below it. -/
theorem test_meets_SetPolicy :
    Held (yardAsked (.setPolicy 511 Policy.defaults)) 7 (.setPolicy 511 Policy.defaults) ∧ (512 : Nat) ≤ 512 ∧ (511 : Nat) < 512 ∧
    (∃ b, ((yardSlot { bound .send .opening with errors := 2 }).slot 0).binding = some b ∧ 2 ≤ b.errors) ∧
    (∀ k b, ((yardSlot { bound .send .opening with errors := 2 }).slot k).binding = some b → b.errors < 3) := by
  refine ⟨rfl, by decide, by decide, ⟨_, rfl, by decide⟩, ?_⟩
  have h : ∀ k, (((yardSlot { bound .send .opening with errors := 2 }).slot k).binding.map
    (fun b => decide (b.errors < 3))).getD true = true := by decide +kernel
  intro k b hb
  have := h k
  rw [hb] at this; simpa using this

/-- RoundBegins and WakeListRule: a STARTING lane; a roster in order; a vehicle that is woken and one that is not. -/
theorem test_meets_RoundBegins :
    ((withLane 3 (laneIn .starting .none) yard).lane 3).state = .starting ∧ RosterOk yard ∧ 2 ∈ wakeList yard 3 ∧ 0 ∉ wakeList yard 3 ∧
    look yard.vehicles 2 ≠ none ∧ look yard.vehicles 0 ≠ none :=
  ⟨rfl, test_yard_safe.2.2.1, by decide +kernel⟩

/-- RoundBegins, the reports and the test of idleness: a woken vehicle one attempt below the maximum and two below; a lane that is free, with its
timer STOPPED, RUNNING and with a delay of 0, and one with an answer queued; the frame-wake mark on a lane that is free and on one that is not. -/
theorem test_meets_RoundIdleness :
    (let tried (n : Nat) : State := loud { yard with vehicles := put yard.vehicles 2 ⟨500, 3, .expected, some 2000, [], 80, n, 0⟩ };
      queued (beginRound 3 (tried 29)) = [.vehicleUnreachable 500 3 .expected 30] ∧
      (look (beginRound 3 (tried 29)).vehicles 2).map (fun r => (r.state, r.wakeAttempts)) = some (.unreachable, 30) ∧
      queued (beginRound 3 (tried 28)) = []) ∧
    (let began (l : Lane) : QuietTimer × Bool :=
        let t := beginRound 2 (withLane 2 l yard); ((t.lane 2).quietTimer, (t.lane 2).frameWake);
      let l := laneIn .starting .none;
      began l = (.running 5000000, false) ∧ began { l with quietTimer := .running 9 } = (.running 9, false) ∧
      began { l with params := { l.params with quietDelay := 0 } } = (.expired, false) ∧
      began { l with quietTimer := .running 9, answers := [⟨318, 0, false⟩] } = (.stopped, false) ∧
      began { l with quietTimer := .expired, frameWake := true } = (.expired, true) ∧
      began { l with quietTimer := .expired, frameWake := true, burst := 1 } = (.stopped, false)) ∧
    ((beginRound 3 (withLane 3 { laneIn .active .service with quietTimer := .running 9 } yard)).lane 3).quietTimer = .stopped := by
  decide +kernel

/-- RoundParts: the three phases; an EDGE window that arrival doubled, one it did not, another mode; an idle lane at the end of its quiet
delay, and a burst in progress. -/
theorem test_meets_RoundParts :
    (∀ p, ((withLane 2 (laneIn .active p) yard).lane 2).state = .active ∧ ((withLane 2 (laneIn .active p) yard).lane 2).phase = p) ∧
    (let l : Lane := { laneIn .active .window with params := { LaneParams.defaults with presence := .edge }, windowByArrival := true };
      l.params.presence = .edge ∧ l.windowByArrival = true ∧ (laneIn .active .window).params.presence ≠ .edge) ∧
    (let s := withLane 2 { laneIn .active .service with quietTimer := .expired } yard;
      (s.lane 2).transaction = none ∧ (s.lane 2).burst = 0 ∧ (s.lane 2).quietTimer = .expired ∧ laneIdle s 2 = true) ∧
    (let s := withLane 2 { laneIn .active .service with quietTimer := .expired, burst := 1 } yard; (s.lane 2).burst ≠ 0) :=
  ⟨fun _ => ⟨rfl, rfl⟩, by decide +kernel⟩

/-- A reception that began at a moment. -/
def since (at_ : Time) : Option Reception := some ⟨at_, 0, 0⟩

/-- RoundParts, the frames in progress: one at the window's close, of which 96 bytes came before it; at the round's end 4 more of its bytes are
spent, and on a lane that falls QUIET they are owed. -/
theorem test_meets_receptions :
    (let l : Lane := { laneIn .active .window with reception := since 0, deadline := 25000 };
      l.reception ≠ none ∧ heardBytes 25000 l = 97 ∧
      (after (.windowClose 2) (withLane 2 l yard)).map (fun t => (t.lane 2).reception) = some (some ⟨0, 97, 0⟩)) ∧
    (let l : Lane := { laneIn .active .service with reception := some ⟨0, 97, 0⟩ };
      l.transaction = none ∧ spentAfter l 101 = 4 ∧
      (after (.roundEnd 2 101) (withLane 2 l yard)).map (fun t => ((t.lane 2).spent, (t.lane 2).reception)) = some (4, none)) ∧
    (let l : Lane := { laneIn .active .service with reception := some ⟨0, 97, 0⟩, quietTimer := .expired };
      (after (.roundEnd 2 101) (withLane 2 l yard)).map (fun t => ((t.lane 2).spent, (t.lane 2).reception)) =
        some (0, some ⟨0, 97, 4⟩)) ∧
    heardBytes 9000000 { laneIn .active .service with reception := since 0 } = 2307 ∧ heardBytes 5 (laneIn .active .service) = 0 := by
  decide +kernel

/-- ChoicePointOrder: an answer that fits exactly and one that does not; a roll-call candidate within the time left and past it; an
eligible slot behind none; no slot eligible. -/
theorem test_meets_ChoicePoint :
    (let l := laneIn .active .service; l.state = .active ∧ l.phase = .service ∧ l.transaction = none) ∧
    (let l : Lane := { laneIn .active .service with answers := [⟨318, 0, false⟩] };
      ceilDiv 230000 l.rate * 1000 ≤ l.roundStart + l.inLength * 1000 - 194000 ∧
      l.roundStart + l.inLength * 1000 - 194001 < ceilDiv 230000 l.rate * 1000) ∧
    (let s := { yard with clock := ⟨3000, false, 0⟩, vehicles := [(0, ⟨318, 3, .present, none, [], 100, 0, 0⟩)] };
      (rollCallCandidate s 3).map (fun p => p.2.number) = some 318 ∧
      (ceilDiv 220000 38400 + 40) * 1000 ≤ 200000 - 154000 ∧ 200000 - 154001 < (ceilDiv 220000 38400 + 40) * 1000) ∧
    rollCallCandidate yard 2 = none ∧ State.reset.clock.unset = true ∧ yard.clock.unset = false ∧
    (let l : Lane := { laneIn .active .service with reception := since 0, answers := [⟨318, 0, false⟩] };
      l.reception ≠ none ∧ ((choose 2 { withLane 2 l yard with now := 1000 }).lane 2).spent = 4) ∧
    ((List.range 12).map (fun n => (yard.lane 3).lastServed + 1 + Fin.ofNat 12 n) = [] ++ 0 :: [1, 2, 3, 4, 5, 6, 7, 8, 9, 10, 11] ∧
      slotEligible yard 3 0 = true) ∧
    (∀ k, slotEligible yard 2 k = false) := by decide +kernel

/-- TransactionEnds: transactions of each owner, with a reply begun and without, and none; a slot in AWAIT and one that is not. -/
theorem test_meets_TransactionEnds :
    (∀ o, ((yardFlight o).lane 3).transaction = some (inFlight o) ∧ ((yardFlight o).lane 3).reception = none) ∧
    (inFlight .answer).owner = .answer ∧ (inFlight .rollCall).owner ≠ .answer ∧ (inFlight (.slot 0 false)).owner = .slot 0 false ∧
    (inFlight .ended).owner = .ended ∧
    (∃ b, ((yardSlot (bound .await .close)).slot 0).binding = some b ∧ b.state = .await) ∧
    ((withLane 3 { laneIn .active .service with transaction := some (inFlight .rollCall), reception := since 5 } yard).lane 3).reception ≠ none ∧
    (yard.lane 3).transaction = none ∧ (∀ b, (yard.slot 0).binding = some b → b.state ≠ .await) :=
  ⟨fun _ => ⟨rfl, rfl⟩, rfl, by decide, rfl, rfl, ⟨_, rfl, rfl⟩, by decide +kernel, rfl, fun b h => by cases h; decide⟩

/-- A relay's frame, as received. -/
def heard (m : RelayMessage) (vehicle position : Nat) : RelayFrame := ⟨vehicle, position, false, m⟩

/-- LaneFrames: a listening lane with and without a transaction; a good frame and a garbled one; a length field of 2,297 and one of 2,298;
an inquire that is taken, and vehicle numbers, positions and queues that turn one away. -/
theorem test_meets_LaneFrames :
    listening 5 (laneIn .active .window) = true ∧ listening 3000 ((yardFlight (.slot 0 false)).lane 3) = true ∧
    goodFrame 3 (relayBytes 3 3 318 0 false []) = some (heard .inquire 318 0) ∧
    goodFrame 3 (relayBytes 3 2 318 0 false []) = none ∧
    tooLongLaneFrame [0x5C, 2, 3, 1, 0, 0, 0, 0xFA, 8] = true ∧ tooLongLaneFrame [0x5C, 2, 3, 1, 0, 0, 0, 0xF9, 8] = false ∧
    (heard .inquire 318 0).message = .inquire ∧ (heard .ready 318 1).message = .ready ∧
    ((yard.lane 3).state ≠ .quiet ∧ (yard.lane 3).answers.length < 4) ∧
    ((1 : Nat) ≤ 1 ∧ (65534 : Nat) < 65535 ∧ (4 : Nat) ≤ 4) ∧
    (∀ a ∈ (yard.lane 3).answers, ¬(a.vehicle = 318 ∧ a.position = 0)) ∧
    4 ≤ ([⟨1, 0, false⟩, ⟨2, 0, false⟩, ⟨3, 0, false⟩, ⟨4, 0, false⟩] : List Answer).length := by decide +kernel

/-- LaneFrames on other lanes: one that left QUIET at this moment and one that left it before; frames on a QUIET lane, which begin STARTING
with the timer EXPIRED and the frame-wake mark; a verdict for a slot, by its validator, and one whose slot has ended. -/
theorem test_meets_QuietFrames :
    (let l : Lane := { laneIn .starting .none with leftQuiet := some 7 };
      listening 7 l = false ∧ (l.state = .starting ∧ l.leftQuiet = some 7) ∧ hearsFrame 7 l = true ∧ hearsFrame 8 l = false) ∧
    (let s := withLane 3 (laneIn .quiet .none) yard;
      (after (.laneFrameReceived 3 (relayBytes 3 3 318 0 false []) 9) s).map (fun t =>
        ((t.lane 3).state, (t.lane 3).quietTimer, (t.lane 3).frameWake, (t.lane 3).answers)) =
        some (.starting, .expired, true, [⟨318, 0, false⟩]) ∧
      (after (.laneFrameReceived 3 (relayBytes 2 3 318 0 false ([0, 1] ++ leBytes 4 9001 ++ [1] ++ leBytes 2 0 ++ leBytes 2 40)) 9) s).map
        (fun t => ((t.lane 3).state, (t.lane 3).quietTimer, (t.lane 3).frameWake, (t.lane 3).acks)) =
        some (.starting, .expired, true, [318])) ∧
    (∃ b v, ((yardSlot (bound .await (.seg 0))).slot 0).binding = some b ∧
      look (yardSlot (bound .await (.seg 0))).validators b.validator = some v) ∧
    (yard.slot 1).binding = none ∧ (∀ k c, Owner.rollCall ≠ .slot k c) ∧ (∀ c, SlotOutcome.taken ≠ .verdict c) :=
  ⟨by decide +kernel, by decide +kernel, ⟨_, _, rfl, rfl⟩, rfl, fun _ _ => by simp, fun _ => by simp⟩

/-- RefreshAndAnnounce: a PRESENT, an ASLEEP and an unknown vehicle; announces of two known validators; malformed ones by number, by a
serial of 0, a position of 5 and a repeated serial; an acknowledge list that is empty and one that holds the vehicle. -/
theorem test_meets_Announce :
    vehicleAt yard 318 = some 0 ∧ (∃ r, look yard.vehicles 0 = some r ∧ r.state = .present) ∧
    vehicleAt yard 77 = some 1 ∧ (∃ r, look yard.vehicles 1 = some r ∧ r.state = .asleep) ∧ vehicleAt yard 9 = none ∧ RosterOk yard ∧
    (let items : List AnnounceItem := [⟨9002, 4, none, none⟩, ⟨9001, 1, none, some 41⟩];
      1 ≤ items.length ∧ items.length ≤ 4 ∧ (∀ x ∈ items, x.serial ≠ 0 ∧ 1 ≤ x.position ∧ x.position ≤ 4) ∧
      (items.map AnnounceItem.serial).Nodup ∧ (items.map AnnounceItem.position).Nodup ∧
      (∀ x ∈ items, validatorAt yard x.serial ≠ none)) ∧
    ¬(1 ≤ (0 : Nat)) ∧ ¬((65535 : Nat) < 65535) ∧ ¬((5 : Nat) ≤ 4) ∧ ¬([9001, 9001] : List Nat).Nodup ∧
    318 ∉ (yard.lane 3).acks ∧ (yard.lane 3).acks.length < 32 := by
  refine ⟨by decide +kernel, ⟨_, rfl, rfl⟩, by decide +kernel, ⟨_, rfl, rfl⟩, by decide +kernel, test_yard_safe.2.2.1, ?_⟩
  decide +kernel

/-- RefreshAndAnnounce, the parts of an announce: a vehicle that is known, that takes the lowest unused entry, an evicted one or none; one
that goes to sleep from PRESENT; one that was on another lane; a validator that is known on the vehicle, on another and on none, that takes
an unused entry, an evicted one or none; an acknowledge list with room, with the vehicle and full. -/
theorem test_meets_AnnounceParts :
    (announceOk 318 [⟨9001, 1, none, none⟩] = true ∧ vehicleAt yard 9 = none ∧ lowestUnused 0 yard.vehicles = 3) ∧
    (let s := { yard with vehicles := fullVehicles .departed };
      vehicleAt s 999 = none ∧ 256 ≤ lowestUnused 0 s.vehicles ∧ (vehicleToEvict s).isSome = true) ∧
    (let s := { yard with vehicles := fullVehicles .present };
      (announceRecord 3 999 s).isNone = true ∧ s.vehicleFull = false ∧ ({ s with vehicleFull := true } : State).vehicleFull = true) ∧
    (∃ v before_ u r, announceRecord 3 318 yard = some (v, before_, u) ∧ look u.vehicles v = some r ∧ before_ = some .present ∧ r.lane = 3 ∧
      r.lane ≠ 2) ∧
    (∃ x, look yard.validators 0 = some x ∧ x.vehicle = some 0 ∧ x.vehicle ≠ some 1) ∧ (validator 9003 1 none [] 0).vehicle = none ∧
    (validatorAt yard 7 = none ∧ lowestUnused 0 yard.validators = 2) ∧
    (let full (v : Option Nat) : State := { yard with validators := (List.range 1024).map (fun j => (j, validator (j + 1) 1 v [] 0)) };
      (validatorAt (full none) 5000 = none ∧ 1024 ≤ lowestUnused 0 (full none).validators ∧
        (validatorToEvict (full none)).map Prod.fst = some 0) ∧
      (validatorToEvict (full (some 0))).isNone = true ∧ (full (some 0)).validatorFull = false) ∧
    (318 ∈ ([318] : List Nat) ∧ ¬(List.replicate 32 (1 : Nat)).length < 32) ∧
    listedInOrder [(4, 1), (1, 0), (2, 7)] = [0, 7, 1] := by
  refine ⟨by decide +kernel, by decide +kernel, by decide +kernel, ⟨_, _, _, _, rfl, rfl, rfl, rfl, by decide⟩, ⟨_, rfl, rfl, by decide⟩,
    rfl, by decide +kernel, by decide +kernel, by decide, by decide +kernel⟩

/-- Two validators of one vehicle that an announce leaves out: their slots end in ascending slot number, though the validator list names
the other one first (R53, R105). -/
theorem test_detachAll_order :
    (let b (v : Nat) : Binding := { bound .send .opening with validator := v };
      let s := { yard with slots := (yard.slots.set 0 ⟨some (b 1), .none, false⟩).set 1 ⟨some (b 0), .none, false⟩ };
      ((detachAll [0, 1] s).host.queue.map Report.body).map (fun r => match r with
        | .transferEnded x => (x.slot.val, x.index)
        | _ => (99, 99)) = [(0, 1), (1, 0)]) := by decide +kernel

/-- QuietAndPresence: a RUNNING quiet-delay timer; a QUIET lane with its maximum; presence lines at both levels; the modes NONE, EDGE and
EDGE_LEVEL. -/
theorem test_meets_Quiet :
    (let l : Lane := { laneIn .active .service with quietTimer := .running 9 }; l.quietTimer = .running 9) ∧
    (let l : Lane := { laneIn .quiet .none with quietMaxEnd := some 9 }; l.state = .quiet ∧ l.quietMaxEnd = some 9) ∧
    (Lane.off false).lineAsserted = false ∧ (Lane.off true).lineAsserted = true ∧ (Lane.off false).state = .off ∧
    (laneIn .active .service).params.presence = .none ∧
    (let l : Lane := { laneIn .quiet .none with params := { LaneParams.defaults with presence := .edge } };
      l.state ≠ .off ∧ l.params.presence ≠ .none ∧ l.arrival = false ∧ l.lineAsserted = false) ∧
    (let l : Lane := { laneIn .quiet .none with
        params := { LaneParams.defaults with presence := .edgeLevel }, lineAsserted := true, arrival := true };
      l.state ≠ .off ∧ l.params.presence = .edgeLevel ∧ l.lineAsserted = true ∧ l.arrival = true) := by decide +kernel

/-- QuietAndPresence, the tests of idleness: an idle lane with its timer STOPPED, with a quiet delay and with one of 0; one that RUNS already; a
lane that is not idle; the frame-wake mark on a lane that is free and on one that is not; the four other parts of being free. -/
theorem test_meets_Idleness :
    (let s := withLane 2 (laneIn .active .service) yard;
      laneIdle s 2 = true ∧ (s.lane 2).frameWake = false ∧ (s.lane 2).quietTimer = .stopped ∧
      ((retestIdle 2 s).lane 2).quietTimer = .running 5000000 ∧ laneIdle yard 3 = false) ∧
    (let s := withLane 2 { laneIn .active .service with params := { LaneParams.defaults with quietDelay := 0 } } yard;
      ((retestIdle 2 s).lane 2).quietTimer = .expired) ∧
    (({ laneIn .active .service with quietTimer := .running 9 } : Lane).quietTimer ≠ .stopped) ∧
    (let marked (a : Bool) : State := withLane 2 { laneIn .starting .none with quietTimer := .expired, frameWake := true, arrival := a } yard;
      ((retestIdle 2 (marked false)).lane 2).frameWake = true ∧ ((retestIdle 2 (marked true)).lane 2).frameWake = false) ∧
    (∀ l ∈ [{ laneIn .active .service with wake := [77] }, { laneIn .active .service with burst := 1 },
        { laneIn .active .service with params := { LaneParams.defaults with presence := .edgeLevel }, lineAsserted := true },
        { laneIn .active .service with answers := [⟨318, 0, false⟩] }], laneIdle (withLane 2 l yard) 2 = false) := by decide +kernel

/-- BreaksAndReset: lanes 5 and 6, OFF, RESETTING and running; a break on a listening lane and at the end of a preamble, with the fault
mark and without; the last counted break. -/
theorem test_meets_BreaksAndReset :
    Held (yardAsked (.resetLane 3)) 7 (.resetLane 3) ∧ (6 : Nat) ≤ 6 ∧ 5 = (5 : LaneIx).val ∧ (yard.lane 5).state = .off ∧
    (laneIn .resetting .none).state = .resetting ∧ ((yard.lane 3).state ≠ .off ∧ (yard.lane 3).state ≠ .resetting) ∧
    (yard.lane 3).reception = none ∧ listening 5 (laneIn .active .window) = true ∧
    ((laneIn .starting .none).state = .starting ∧ (laneIn .starting .none).deadline ≤ 0) ∧
    (listening 5 (laneIn .resetting .none) = false ∧ (laneIn .resetting .none).state ≠ .starting) ∧
    ({ laneIn .active .window with breaks := 65535 } : Lane).breaks ≤ 65535 ∧
    ({ laneIn .active .window with fault := true } : Lane).fault = true := by
  refine ⟨rfl, ?_⟩; decide +kernel

/-- BreaksAndReset: of a request of 11 bytes that began at 100 µs at 25,600 bit/s, none, 3 and all of its bytes are sent. -/
theorem test_sentSoFar : sentSoFar 25600 100 (inFlight .rollCall) = 0 ∧ sentSoFar 25600 1300 (inFlight .rollCall) = 3 ∧
    sentSoFar 25600 13000 (inFlight .rollCall) = 11 := by decide +kernel

/-- Lane fields as SET_LANE carries them. -/
def laneFields (crossing presence : Nat) : RawLaneFields :=
  ⟨24, 200, 20, 8, 40, 30, 4, 256, 60, 120, crossing, 800, 5000, 30, 5, presence⟩

/-- LaneGating: lane 6, enable 2, a crossing mode of 4 and a presence mode of 3 refuse; lane 5, enable 0 and 1, the modes 3 and 2 do not;
an OFF lane and one that runs; a slot on the lane, a vehicle on it and none on another. -/
theorem test_meets_LaneGating :
    (let r := Request.setLane 3 1 65535 (laneFields 3 2); Held (yardAsked r) 7 r) ∧
    ((6 : Nat) ≤ 6 ∧ (2 : Nat) ≤ 2) ∧
    ((65535 : Nat).testBit 10 = true ∧ 4 ≤ (laneFields 4 0).crossing ∧ (65535 : Nat).testBit 15 = true ∧ 3 ≤ (laneFields 0 3).presence) ∧
    ((laneFields 3 2).crossing < 4 ∧ (laneFields 3 2).presence < 3) ∧ (yard.lane 5).state = .off ∧ (yard.lane 3).state ≠ .off ∧
    (writtenParams 65535 (laneFields 0 1) LaneParams.defaults).presence ≠ LaneParams.defaults.presence ∧
    (writtenParams 1 (laneFields 0 1) LaneParams.defaults).presence = LaneParams.defaults.presence ∧
    (∃ b, (yard.slot 0).binding = some b ∧ b.lane = 3) ∧ (∃ r, look yard.vehicles 0 = some r ∧ r.lane = 3 ∧ r.lane ≠ 2) :=
  ⟨rfl, by decide, by decide, by decide, by decide +kernel, by decide +kernel, by decide, by decide, ⟨_, rfl, rfl⟩,
    ⟨_, rfl, rfl, by decide⟩⟩

/-- LaneGating, a lane switched OFF with a bound slot and three vehicles: the slot ends with LANE_OFF, then each vehicle departs in ascending
index, and the record returns to defaults. -/
theorem test_meets_SwitchOff :
    (after .switchLaneOff (ask (.setLane 3 0 0 (laneFields 0 0)) (loud yard))).map (fun t => (queued t, t.lane 3)) =
      some ([yardEnded 2 .delta 41 .laneOff, .vehicleGone 318 3 .present .laneOff, .missedDeparture 318 [(9001, 1), (9002, 1)],
        .vehicleGone 77 3 .asleep .laneOff, .vehicleGone 500 3 .expected .laneOff], Lane.off false) := by decide +kernel

/-- RequestsNeedTheProcessor while the processor holds a request that is not the command's own: one of another kind, a PUBLISH of another
stream, a SET_LANE that switches on a lane which runs, and one that switches a lane on where the command is SWITCH_LANE_OFF. -/
theorem test_meets_RequestOfAnotherKind :
    (∀ tag q, (yardAsked .readSlots).host.processor = .busy tag q → q ≠ .identify) ∧
    (∀ tag q, (yardAsked (.publish 1 1)).host.processor = .busy tag q → ∀ stream kind, q = .publish stream kind →
      ¬((∀ k : ObjKind, ¬(stream = k.stream.code ∧ kind = k.code)) ∨ (stream = 2 ∧ kind = 3))) ∧
    (∀ tag q, (yardAsked (.setLane 3 1 65535 (laneFields 3 2))).host.processor = .busy tag q →
      ∀ lane enable mask f, q = .setLane lane enable mask f →
        ¬(6 ≤ lane ∨ 2 ≤ enable ∨ (mask.testBit 10 = true ∧ 4 ≤ f.crossing) ∨ (mask.testBit 15 = true ∧ 3 ≤ f.presence)) ∧
        ¬(enable = 1 ∧ ∀ i : LaneIx, lane = i.val → (yard.lane i).state = .off) ∧ ¬enable = 0) := by
  refine ⟨fun tag q h => ?_, fun tag q h stream kind hq => ?_, fun tag q h lane enable mask f hq => ?_⟩
  · cases h; decide
  · cases h; cases hq; rintro (h | h)
    · exact h .fareImage ⟨rfl, rfl⟩
    · exact absurd h (by decide)
  · cases h; cases hq
    exact ⟨by decide, fun h => absurd (h.2 3 rfl) (by decide +kernel), by decide⟩

/-- LaneGating, the presence mode: written as NONE, EDGE and EDGE_LEVEL over another, with the line deasserted and asserted, the arrival flag set
and clear, on a lane that is QUIET and on one that is not; a lane switched on in a running scan has no inputs in it. -/
theorem test_meets_PresenceModes :
    (let asks (mode : Nat) (l : Lane) := (after .setLane (ask (.setLane 3 1 32768 (laneFields 0 mode)) (withLane 3 l yard))).map
        (fun t => ((t.lane 3).state, (t.lane 3).arrival, (t.lane 3).params.presence));
      let level : LaneParams := { LaneParams.defaults with presence := .edgeLevel };
      asks 0 { laneIn .active .window with params := level, arrival := true } = some (.active, false, .none) ∧
      asks 1 { laneIn .active .window with params := level, arrival := true } = some (.active, true, .edge) ∧
      asks 2 { laneIn .active .window with arrival := true } = some (.active, false, .edgeLevel) ∧
      asks 2 { laneIn .active .window with arrival := true, lineAsserted := true } = some (.active, true, .edgeLevel) ∧
      asks 2 { laneIn .active .window with lineAsserted := true } = some (.active, true, .edgeLevel) ∧
      asks 2 { laneIn .quiet .none with lineAsserted := true } = some (.starting, true, .edgeLevel)) ∧
    (let every : Vector (Option LaneInputs) 6 := Vector.replicate 6 (some ⟨24, 256, 60, 120, .both, 800⟩);
      let s := { yardScan 0 with scanner := { yard.scanner with run := some { scanRun 0 with inputs := every } } };
      (after .switchLaneOn (ask (.setLane 5 1 0 (laneFields 0 0)) s)).map (fun t => t.scanner.run.map (fun r => r.inputs.get 5)) =
        some (some none)) ∧
    noneClamped 65535 (laneFields 3 2) = true ∧ noneClamped 128 { laneFields 3 2 with segmentSize := 257 } = false := by decide +kernel

/-- WakeLaneOutcome: lanes 5 and 6 and each state. -/
theorem test_meets_WakeLane :
    Held (yardAsked (.wakeLane 5)) 7 (.wakeLane 5) ∧ Held (yardAsked (.wakeLane 6)) 7 (.wakeLane 6) ∧ 5 = (5 : LaneIx).val ∧
    (∀ st p, ((withLane 5 (laneIn st p) (yardAsked (.wakeLane 5))).lane 5).state = st) := ⟨rfl, rfl, rfl, fun _ _ => rfl⟩

/-- The invariants: the yard is safe, and with a command pending it takes a step. -/
theorem test_meets_invariants :
    ContentOk yard ∧ BlocksOk yard ∧ RecordsOk yard ∧ LanesOk yard ∧ RosterOk yard ∧ PolicyOk yard ∧ QueueOk yard ∧
    ∀ s : State, s.resetPin = true → ∃ t, step { s with pending := [.transmitStart] } = .next t := by
  refine ⟨test_yard_safe.2.2.2, test_yard_safe.1, test_yard_safe.2.1, ?_, test_yard_safe.2.2.1, ?_, by unfold QueueOk; decide +kernel, ?_⟩
  · have h : ∀ i, yard.lane i = Lane.off false ∨ yard.lane i = laneIn .active .service := by decide +kernel
    intro i
    have p : LaneParams.defaults.ok := by constructor <;> decide
    rcases h i with h | h <;> rw [h] <;> constructor <;>
      first | exact p | simp [laneIn, Lane.off, Config.answerPlaces, Config.ackPlaces, Config.beaconPlaces]
  · constructor <;> decide +kernel
  · intro s h
    exact ⟨_, by simp [step, exec, execTransmitStart, h]; rfl⟩

end Sys2Proof.Tests
end

/-! PROOFS. The catalogue of a state, and every operation that leaves it as it is. -/

namespace Sys2Proof.Machine

/-- The fields of the state that the invariants of the catalogue speak of (R1, R2, R3, R29). -/
structure Catalogue where
  content : Memory
  pool : List Nat
  objects : Table ContentObject
  fare : Option FareRecord
  block : Option BlockRecord
  merge : Option MergeJob

/-- The catalogue of a state. -/
def State.catalogue (s : State) : Catalogue := ⟨s.content, s.pool, s.objects, s.fare, s.block, s.merge⟩

section
variable (s : State)

theorem foldl_catalogue {α : Type} (f : State → α → State) (hf : ∀ t a, (f t a).catalogue = t.catalogue) (l : List α) :
    (l.foldl f s).catalogue = s.catalogue := by
  induction l generalizing s with
  | nil => rfl
  | cons a l ih => exact (ih (f s a)).trans (hf s a)

/-! ## Access to records, reports and replies -/

@[simp] theorem modLane_catalogue (i : LaneIx) (f : Lane → Lane) : (modLane i f s).catalogue = s.catalogue := rfl
@[simp] theorem setSlot_catalogue (k : SlotIx) (r : Slot) : (setSlot k r s).catalogue = s.catalogue := rfl
@[simp] theorem modHost_catalogue (f : HostLink → HostLink) : (modHost f s).catalogue = s.catalogue := rfl
@[simp] theorem advanceTo_catalogue (t : Time) : (advanceTo t s).catalogue = s.catalogue := rfl
@[simp] theorem setRun_catalogue (r : ScanRun) : (setRun r s).catalogue = s.catalogue := rfl
@[simp] theorem answer_catalogue (c : Nat) (g : Byte) (st : Status) (b : List Byte) :
    (answer c g st b s).catalogue = s.catalogue := rfl
@[simp] theorem refuse_catalogue (c : Nat) (g : Byte) (st : Status) : (refuse c g st s).catalogue = s.catalogue := rfl
@[simp] theorem modBinding_catalogue (k : SlotIx) (f : Binding → Binding) : (modBinding k f s).catalogue = s.catalogue := by
  simp [State.catalogue]
@[simp] theorem modVehicle_catalogue (v : Nat) (f : Vehicle → Vehicle) : (modVehicle v f s).catalogue = s.catalogue := by
  simp [State.catalogue]
@[simp] theorem modValidator_catalogue (i : Nat) (f : Validator → Validator) :
    (modValidator i f s).catalogue = s.catalogue := by simp [State.catalogue]
@[simp] theorem submit_catalogue (b : ReportBody) : (submit b s).catalogue = s.catalogue := by simp [State.catalogue]
@[simp] theorem submitAll_catalogue (bs : List ReportBody) : (submitAll bs s).catalogue = s.catalogue :=
  foldl_catalogue s _ (fun t b => submit_catalogue t b) bs

/-! ## Lanes -/

@[simp] theorem retestIdle_catalogue (i : LaneIx) : (retestIdle i s).catalogue = s.catalogue := by
  rw [retestIdle_rest]; rfl
theorem Chosen.catalogue_eq {s t : State} (h : Chosen s t) : t.catalogue = s.catalogue := by rw [h.rest]; rfl
@[simp] theorem chooseAll_catalogue : (chooseAll s).catalogue = s.catalogue := (chosen_chooseAll s).catalogue_eq
@[simp] theorem enterStarting_catalogue (i : LaneIx) : (enterStarting i s).catalogue = s.catalogue := rfl
@[simp] theorem leaveQuiet_catalogue (i : LaneIx) (b : Bool) : (leaveQuiet i b s).catalogue = s.catalogue := rfl
@[simp] theorem leaveQuietByFrame_catalogue (i : LaneIx) : (leaveQuietByFrame i s).catalogue = s.catalogue := rfl
@[simp] theorem enterQuiet_catalogue (i : LaneIx) (n : Nat) : (enterQuiet i n s).catalogue = s.catalogue := rfl
@[simp] theorem abandonTransaction_catalogue (i : LaneIx) (n : Nat) :
    (abandonTransaction i n s).catalogue = s.catalogue := rfl
@[simp] theorem clearArrival_catalogue (i : LaneIx) : (clearArrival i s).catalogue = s.catalogue := by
  simp [clearArrival]
@[simp] theorem setArrival_catalogue (i : LaneIx) : (setArrival i s).catalogue = s.catalogue := by
  simp only [setArrival]
  split <;> simp
@[simp] theorem raiseAttempts_catalogue (v : Nat) : (raiseAttempts s v).catalogue = s.catalogue := by
  unfold raiseAttempts
  split
  · rfl
  · split_ifs
    · exact submit_catalogue _ _
    · rfl
@[simp] theorem beginRound_catalogue (i : LaneIx) : (beginRound i s).catalogue = s.catalogue := by
  simp only [beginRound, retestIdle_catalogue]
  exact foldl_catalogue _ _ raiseAttempts_catalogue _
@[simp] theorem closeWindow_catalogue (i : LaneIx) : (closeWindow i s).catalogue = s.catalogue := by
  simp only [closeWindow]
  split <;> simp
@[simp] theorem endRound_catalogue (i : LaneIx) (n : Nat) : (endRound i n s).catalogue = s.catalogue := by
  unfold endRound nextRound
  split_ifs <;> simp
@[simp] theorem endTransaction_catalogue (i : LaneIx) (t : Transaction) (n : Nat) :
    (endTransaction i t n s).catalogue = s.catalogue := rfl
@[simp] theorem looseFrame_catalogue (i : LaneIx) (n : Nat) : (looseFrame i n s).catalogue = s.catalogue := rfl
@[simp] theorem inquire_catalogue (i : LaneIx) (f : RelayFrame) : (inquire i f s).catalogue = s.catalogue := by
  unfold inquire
  split <;> simp
@[simp] theorem applyPresenceMode_catalogue (i : LaneIx) (m : PresenceMode) :
    (applyPresenceMode i m s).catalogue = s.catalogue := by
  simp only [applyPresenceMode]
  repeat' split
  all_goals simp
@[simp] theorem writeLane_catalogue (i : LaneIx) (mask : Nat) (f : RawLaneFields) :
    (writeLane i mask f s).catalogue = s.catalogue := applyPresenceMode_catalogue _ i _
@[simp] theorem switchOn_catalogue (i : LaneIx) (mask : Nat) (f : RawLaneFields) :
    (switchOn i mask f s).catalogue = s.catalogue := rfl
@[simp] theorem laneReply_catalogue (g : Byte) (i : LaneIx) (b : Bool) : (laneReply g i b s).catalogue = s.catalogue := rfl
@[simp] theorem clearFault_catalogue (i : LaneIx) : (clearFault i s).catalogue = s.catalogue := rfl
@[simp] theorem restartQuiet_catalogue (i : LaneIx) : (restartQuiet i s).catalogue = s.catalogue := rfl

/-! ## The roster -/

@[simp] theorem missDeparture_catalogue (n : Nat) (b : List (Nat × Nat × Nat)) :
    (missDeparture n b s).catalogue = s.catalogue := by
  unfold missDeparture
  split_ifs
  · rfl
  · simpa using foldl_catalogue s _ (fun t p => modValidator_catalogue t p.1 setMissed) b
@[simp] theorem refresh_catalogue (n : Nat) : (refresh n s).catalogue = s.catalogue := by
  unfold refresh
  repeat' split
  all_goals first
    | rfl
    | exact submit_catalogue _ _
@[simp] theorem unattach_catalogue (i : Nat) : (unattach s i).catalogue = s.catalogue := modValidator_catalogue s i _
@[simp] theorem evictVehicle_catalogue (v : Nat) (r : Vehicle) : (evictVehicle v r s).catalogue = s.catalogue :=
  foldl_catalogue s _ unattach_catalogue r.validators
@[simp] theorem unlist_catalogue (i : Nat) (v : Option Nat) : (unlist i v s).catalogue = s.catalogue := by
  unfold unlist
  split <;> simp
@[simp] theorem evictValidator_catalogue (i : Nat) (r : Validator) : (evictValidator i r s).catalogue = s.catalogue :=
  unlist_catalogue s i r.vehicle
theorem roomForVehicle_catalogue {s t : State} {v : Nat} (h : roomForVehicle s = some (v, t)) :
    t.catalogue = s.catalogue := by
  unfold roomForVehicle at h
  split_ifs at h
  · cases h; rfl
  · split at h <;> cases h
    exact evictVehicle_catalogue s _ _
theorem roomForValidator_catalogue {s t : State} {i : Nat} (h : roomForValidator s = some (i, t)) :
    t.catalogue = s.catalogue := by
  unfold roomForValidator at h
  split_ifs at h
  · cases h; rfl
  · split at h <;> cases h
    exact evictValidator_catalogue s _ _
theorem findOrCreate_catalogue {s t : State} {a : AnnounceItem} {i : Nat} (h : findOrCreate a s = some (i, t)) :
    t.catalogue = s.catalogue := by
  unfold findOrCreate at h
  split at h
  · cases h; rfl
  · split at h
    · cases h
    · rename_i hr
      cases h
      have e := roomForValidator_catalogue hr
      exact e
theorem announceRecord_catalogue {s t : State} {i : LaneIx} {n v : Nat} {b : Option VehicleState}
    (h : announceRecord i n s = some (v, b, t)) : t.catalogue = s.catalogue := by
  unfold announceRecord at h
  split at h
  · cases h; rfl
  · split at h
    · cases h
    · rename_i hr
      cases h
      have e := roomForVehicle_catalogue hr
      exact e
@[simp] theorem vehicleTableFull_catalogue (n : Nat) : (vehicleTableFull n s).catalogue = s.catalogue := by
  unfold vehicleTableFull
  split
  · rfl
  · exact submit_catalogue _ _
@[simp] theorem validatorTableFull_catalogue (n k : Nat) : (validatorTableFull n k s).catalogue = s.catalogue := by
  unfold validatorTableFull
  split
  · rfl
  · exact submit_catalogue _ _
@[simp] theorem placeAck_catalogue (i : LaneIx) (n : Nat) : (placeAck i n s).catalogue = s.catalogue := rfl
@[simp] theorem announceEnd_catalogue (i : LaneIx) (n : Nat) (b : Bool) (c : Nat) :
    (announceEnd i n b c s).catalogue = s.catalogue := by
  simp only [announceEnd]
  split <;> simp
@[simp] theorem verdictRefresh_catalogue (o : Owner) (x : SlotOutcome) : (verdictRefresh o x s).catalogue = s.catalogue := by
  unfold verdictRefresh
  repeat' split
  all_goals simp
@[simp] theorem frameRefresh_catalogue (f : RelayFrame) : (frameRefresh f s).catalogue = s.catalogue := by
  unfold frameRefresh
  split <;> simp
@[simp] theorem writeHeld_catalogue (i : Nat) (f b : Option Nat) : (writeHeld i f b s).1.catalogue = s.catalogue := by
  unfold writeHeld
  split <;> rfl
@[simp] theorem publishValidator_catalogue (first : Option Stream) (i : Nat) :
    (publishValidator first s i).catalogue = s.catalogue := by
  unfold publishValidator
  split
  · rfl
  · exact submitAll_catalogue _ _
@[simp] theorem publishRoster_catalogue (first : Option Stream) : (publishRoster first s).catalogue = s.catalogue :=
  foldl_catalogue s _ (fun t i => publishValidator_catalogue t first i) _

/-! ## Slots and the scanner -/

@[simp] theorem settleValidator_catalogue (b : Binding) (c : EndCond) :
    (settleValidator b c s).1.catalogue = s.catalogue := by
  unfold settleValidator
  repeat' split
  all_goals simp
@[simp] theorem unbindRoster_catalogue (b : Binding) : (unbindRoster b s).catalogue = s.catalogue := by
  simp [unbindRoster]
@[simp] theorem addUseful_catalogue (i : LaneIx) (n : Nat) : (addUseful i n s).catalogue = s.catalogue := rfl
@[simp] theorem retireSlot_catalogue (o : Nat) (k : SlotIx) : (retireSlot o s k).catalogue = s.catalogue := by
  unfold retireSlot
  split
  · rfl
  · split_ifs <;> simp
@[simp] theorem retireSlots_catalogue (o : Nat) : (retireSlots o s).catalogue = s.catalogue :=
  foldl_catalogue s _ (fun t k => retireSlot_catalogue t o k) _
@[simp] theorem entryTurn_catalogue (i : Nat) (v : Validator) (run : ScanRun) :
    (entryTurn i v run s).catalogue = s.catalogue := by
  unfold entryTurn
  split
  · rfl
  · exact submitAll_catalogue _ _

end

end Sys2Proof.Machine

/-! PROOFS. What the work outside the catalogue does to it: references are counted and RETIRING objects are freed, and nothing else. -/

namespace Sys2Proof.Machine

/-! ## The relation -/

/-- An object-table entry is as it was but for its references, or a RETIRING object has been freed (R19, R20). -/
def EntryKept (a b : Option ContentObject) : Prop :=
  (∃ n : ContentObject → Nat, b = a.map (fun r => { r with refs := n r })) ∨ (b = none ∧ ∃ r, a = some r ∧ r.state = .retiring)

/-- The catalogue is as it was but for references and freed RETIRING objects, and the account of blocks is kept. -/
structure CatalogueKept (s t : State) : Prop where
  content : t.content = s.content
  fare : t.fare = s.fare
  block : t.block = s.block
  merge : t.merge = s.merge
  blocks : BlocksOk s → BlocksOk t
  entries : BlocksOk s → ∀ o, EntryKept (look s.objects o) (look t.objects o)

theorem EntryKept.refl (a : Option ContentObject) : EntryKept a a := Or.inl ⟨fun r => r.refs, by simp⟩

theorem EntryKept.trans {a b c : Option ContentObject} (h : EntryKept a b) (k : EntryKept b c) : EntryKept a c := by
  rcases h with ⟨n, rfl⟩ | ⟨rfl, h⟩
  · rcases k with ⟨m, rfl⟩ | ⟨rfl, r, hr, hs⟩
    · exact Or.inl ⟨fun r => m { r with refs := n r }, by simp [Function.comp_def]⟩
    · obtain ⟨q, hq, rfl⟩ := Option.map_eq_some_iff.1 hr
      exact Or.inr ⟨rfl, q, hq, hs⟩
  · rcases k with ⟨m, rfl⟩ | ⟨rfl, r, hr, _⟩
    · exact Or.inr ⟨rfl, h⟩
    · cases hr

/-- An entry in use that is not RETIRING stays in use, with its references alone changed. -/
theorem EntryKept.some {a b : Option ContentObject} (h : EntryKept a b) (r : ContentObject) (ha : a = Option.some r)
    (hr : r.state ≠ .retiring) : ∃ n, b = Option.some { r with refs := n } := by
  subst ha
  rcases h with ⟨n, rfl⟩ | ⟨_, q, hq, hs⟩
  · exact ⟨n r, rfl⟩
  · cases hq
    exact absurd hs hr

/-- An entry in use was in use before, with its references alone different. -/
theorem EntryKept.back {a b : Option ContentObject} (h : EntryKept a b) (r : ContentObject) (hb : b = Option.some r) :
    ∃ q n, a = Option.some q ∧ r = { q with refs := n } := by
  subst hb
  rcases h with ⟨n, hn⟩ | ⟨hn, _⟩
  · obtain ⟨q, hq, rfl⟩ := Option.map_eq_some_iff.1 hn.symm
    exact ⟨q, _, hq, rfl⟩
  · cases hn

theorem CatalogueKept.refl (s : State) : CatalogueKept s s := ⟨rfl, rfl, rfl, rfl, id, fun _ _ => EntryKept.refl _⟩

theorem CatalogueKept.trans {s t u : State} (h : CatalogueKept s t) (k : CatalogueKept t u) : CatalogueKept s u where
  content := k.content.trans h.content
  fare := k.fare.trans h.fare
  block := k.block.trans h.block
  merge := k.merge.trans h.merge
  blocks b := k.blocks (h.blocks b)
  entries b o := (h.entries b o).trans (k.entries (h.blocks b) o)

theorem kept_same {s t : State} (h : t.catalogue = s.catalogue) : CatalogueKept s t := by
  obtain ⟨h1, h2, h3, h4, h5, h6⟩ := Catalogue.mk.inj h
  refine ⟨h1, h4, h5, h6, ?_, fun _ o => h3 ▸ EntryKept.refl _⟩
  unfold BlocksOk allBlocks
  rw [h2, h3]
  exact id

/-- Work that leaves the catalogue as it is, after other work. -/
theorem CatalogueKept.same {s t u : State} (h : CatalogueKept s t) (k : u.catalogue = t.catalogue) : CatalogueKept s u :=
  h.trans (kept_same k)

/-- Work that leaves the catalogue as it is, before other work. -/
theorem CatalogueKept.from {s t u : State} (h : CatalogueKept t u) (k : t.catalogue = s.catalogue) : CatalogueKept s u :=
  (kept_same k).trans h

theorem CatalogueKept.foldl {α : Type} (f : State → α → State) (hf : ∀ t a, CatalogueKept t (f t a)) (l : List α) (s : State) :
    CatalogueKept s (l.foldl f s) := by
  induction l generalizing s with
  | nil => exact CatalogueKept.refl s
  | cons a l ih => exact (hf s a).trans (ih (f s a))

theorem CatalogueKept.objectIs {s t : State} (h : CatalogueKept s t) (hb : BlocksOk s) {o : Nat} {k : ObjKind} {st : ObjState}
    (ho : ObjectIs s o k st) (hst : st ≠ .retiring) : ObjectIs t o k st := by
  obtain ⟨r, hr, hk, hs⟩ := ho
  obtain ⟨n, hn⟩ := (h.entries hb o).some r hr (hs ▸ hst)
  exact ⟨_, hn, hk, hs⟩

/-- What the records name stays there, since nothing RETIRING is named. -/
theorem CatalogueKept.records {s t : State} (h : CatalogueKept s t) (hb : BlocksOk s) (hr : RecordsOk s) : RecordsOk t where
  fare f hf := h.objectIs hb (hr.fare f (h.fare ▸ hf)) (by decide)
  base b hf := h.objectIs hb (hr.base b (h.block ▸ hf)) (by decide)
  chain b hf d hd := h.objectIs hb (hr.chain b (h.block ▸ hf) d hd) (by decide)
  result j hj := h.objectIs hb (hr.result j (h.merge ▸ hj)) (by decide)
  loading o r ho hl := by
    obtain ⟨q, n, hq, rfl⟩ := (h.entries hb o).back r ho
    exact hr.loading o q hq hl

/-! ## References and retirement (R19, R20) -/

theorem kept_modRefs (o : Nat) (n : ContentObject → Nat) (s : State) :
    CatalogueKept s (modObject o (fun r => { r with refs := n r }) s) where
  content := modObject_content ..
  fare := modObject_fare ..
  block := modObject_block ..
  merge := modObject_merge ..
  blocks := (inside_modObject o (fun r => { r with refs := n r }) s (fun _ => rfl)).blocks
  entries _ d := by
    rw [look_modObject]
    split_ifs
    · exact Or.inl ⟨n, rfl⟩
    · exact EntryKept.refl _

theorem kept_retireIfUnused (o : Nat) (s : State) : CatalogueKept s (retireIfUnused o s) := by
  have e := (rosterWork_retireIfUnused o s).rest
  refine ⟨(inside_retireIfUnused o s).content, by rw [e], by rw [e], by rw [e], (inside_retireIfUnused o s).blocks, fun hb d => ?_⟩
  rw [look_retireIfUnused o d s hb.1]
  cases hd : look s.objects d with
  | none => exact EntryKept.refl _
  | some r =>
    simp only [Option.bind_some]
    split_ifs with hc
    · exact Or.inr ⟨rfl, r, rfl, hc.2.1⟩
    · exact EntryKept.refl _

theorem kept_takeRef (o : Nat) (s : State) : CatalogueKept s (takeRef o s) := kept_modRefs o _ s

theorem kept_releaseRef (o : Nat) (s : State) : CatalogueKept s (releaseRef o s) := kept_modRefs o _ s

theorem kept_dropRef (o : Nat) (s : State) : CatalogueKept s (dropRef o s) :=
  (kept_releaseRef o s).trans (kept_retireIfUnused o _)

theorem kept_retireSources (ids : List Nat) (s : State) : CatalogueKept s (retireSources ids s) :=
  CatalogueKept.foldl _ (fun t o => kept_retireIfUnused o t) ids s

/-! ## Slots (R92 to R107) -/

/-- The end of a binding drops one reference (R107). -/
theorem kept_endSlot (k : SlotIx) (c : EndCond) (u : Bool) (s : State) : CatalogueKept s (endSlot k c u s) := by
  unfold endSlot
  split
  · exact CatalogueKept.refl s
  · rename_i b _
    refine CatalogueKept.same ?_ (retestIdle_catalogue _ _)
    exact CatalogueKept.same (t := dropRef b.object _) ((kept_dropRef b.object _).from (by simp)) rfl

theorem kept_endIf (which : Binding → Bool) (c : EndCond) (s : State) (k : SlotIx) : CatalogueKept s (endIf which c s k) := by
  unfold endIf
  split
  · exact CatalogueKept.refl s
  · split
    · exact kept_endSlot k c false s
    · exact CatalogueKept.refl s

theorem kept_endSlotsWhere (which : Binding → Bool) (c : EndCond) (s : State) : CatalogueKept s (endSlotsWhere which c s) :=
  endSlotsWhere_eq which c s ▸ CatalogueKept.foldl _ (kept_endIf which c) _ s

theorem kept_endExhausted (k : SlotIx) (b : Binding) (s : State) : CatalogueKept s (endExhausted k b s) := by
  unfold endExhausted
  split <;> exact kept_endSlot ..

theorem kept_slotError (k : SlotIx) (b : Binding) (e : Binding → Binding) (s : State) : CatalogueKept s (slotError k b e s) := by
  unfold slotError
  split
  · exact (kept_endExhausted k b _).from (by simp)
  · exact kept_same (by simp)

/-- The end of a binding whose fields have just been changed. -/
theorem kept_endSlot_modBinding (k : SlotIx) (c : EndCond) (u : Bool) (f : Binding → Binding) (s : State) :
    CatalogueKept s (endSlot k c u (modBinding k f s)) := (kept_endSlot k c u _).from (by simp)

theorem kept_putOutcome (k : SlotIx) (b : Binding) (o : SlotOutcome) (s : State) : CatalogueKept s (putOutcome k b o s) := by
  unfold putOutcome
  split
  · split
    · exact kept_endSlot_modBinding ..
    · exact kept_same (by simp)
  · exact kept_same (by simp)
  · exact kept_slotError ..

theorem kept_pendingOutcome (k : SlotIx) (b : Binding) (s : State) : CatalogueKept s (pendingOutcome k b s) := by
  unfold pendingOutcome
  split
  · exact kept_same (by simp)
  · exact kept_slotError ..

theorem kept_badCheckOutcome (k : SlotIx) (b : Binding) (s : State) : CatalogueKept s (badCheckOutcome k b s) := by
  unfold badCheckOutcome
  split_ifs
  · exact kept_same (by simp)
  · exact kept_same (by simp)
  · exact kept_endSlot_modBinding ..

theorem kept_fetchOutcome (k : SlotIx) (b : Binding) (o : SlotOutcome) (s : State) : CatalogueKept s (fetchOutcome k b o s) := by
  unfold fetchOutcome
  split
  case h_4 => exact kept_endSlot_modBinding ..
  case h_5 => exact kept_endSlot_modBinding ..
  case h_6 => exact kept_badCheckOutcome ..
  case h_7 => exact kept_pendingOutcome ..
  case h_8 => exact kept_slotError ..
  case h_3 => exact kept_same (by simp)
  all_goals
    split <;> exact kept_same (by simp)

theorem kept_probeOutcome (k : SlotIx) (b : Binding) (o : SlotOutcome) (s : State) : CatalogueKept s (probeOutcome k b o s) := by
  unfold probeOutcome
  split
  · exact kept_same (by simp)
  · exact kept_same (by simp)
  · exact kept_slotError ..

theorem kept_slotOutcome (k : SlotIx) (c : Bool) (o : SlotOutcome) (s : State) : CatalogueKept s (slotOutcome k c o s) := by
  unfold slotOutcome countOnlyOutcome
  split
  · exact CatalogueKept.refl s
  · split_ifs
    · exact kept_slotError ..
    · exact kept_same (by simp)
    · split
      · exact kept_putOutcome ..
      · exact kept_fetchOutcome ..
      · exact kept_probeOutcome ..

/-! ## The roster -/

theorem kept_depart (v : Nat) (c : DepartCause) (s : State) : CatalogueKept s (depart v c s) := by
  unfold depart
  split
  · exact CatalogueKept.refl s
  · exact (kept_endSlotsWhere (fun b => b.vehicle == v) .vehicleGone s).same (by simp [endVehicleSlots])

theorem kept_departLane (i : LaneIx) (s : State) : CatalogueKept s (departLane i s) := by
  refine CatalogueKept.foldl _ (fun t v => ?_) _ s
  split
  · exact CatalogueKept.refl t
  · split
    · exact kept_depart ..
    · exact CatalogueKept.refl t

theorem kept_silenceCheck (s : State) (v : Nat) : CatalogueKept s (silenceCheck s v) := by
  unfold silenceCheck
  split
  · exact CatalogueKept.refl s
  · split
    · exact kept_depart ..
    · exact CatalogueKept.refl s

theorem kept_silenceCheckAll (s : State) : CatalogueKept s (silenceCheckAll s) := by
  unfold silenceCheckAll
  split
  · exact CatalogueKept.refl s
  · exact (CatalogueKept.foldl silenceCheck kept_silenceCheck _ _).from rfl

theorem kept_moveFrom (v i : Nat) (s : State) : CatalogueKept s (moveFrom v i s) := by
  unfold moveFrom
  split
  · exact CatalogueKept.refl s
  · split
    · exact CatalogueKept.refl s
    · exact (kept_endSlotsWhere _ _ _).from (by simp)

theorem kept_announceOne (v n : Nat) (acc : State × List (Nat × Nat)) (a : AnnounceItem) :
    CatalogueKept acc.1 (announceOne v n acc a).1 := by
  unfold announceOne
  split
  · exact kept_same (by simp)
  · rename_i i s1 h
    exact ((kept_moveFrom v i s1).from (findOrCreate_catalogue h)).same (by simp)

theorem kept_announceItems (v n : Nat) (items : List AnnounceItem) (acc : State × List (Nat × Nat)) :
    CatalogueKept acc.1 (items.foldl (announceOne v n) acc).1 := by
  induction items generalizing acc with
  | nil => exact CatalogueKept.refl _
  | cons a items ih => exact (kept_announceOne v n acc a).trans (ih _)

theorem kept_detachAll (ids : List Nat) (s : State) : CatalogueKept s (detachAll ids s) :=
  (kept_endSlotsWhere _ _ _).from (foldl_catalogue s _ unattach_catalogue ids)

theorem kept_announceVehicle (i : LaneIx) (b : Bool) (v : Nat) (o : Option VehicleState) (s : State) :
    CatalogueKept s (announceVehicle i b v o s) := by
  simp only [announceVehicle]
  generalize hs1 : modVehicle v _ s = s1
  have h1 : CatalogueKept s s1 := kept_same (hs1 ▸ modVehicle_catalogue ..)
  have h2 : CatalogueKept s (if b = true ∧ o = some .present then endVehicleSlots v .asleep s1 else s1) := by
    split
    · exact h1.trans (kept_endSlotsWhere ..)
    · exact h1
  generalize (if b = true ∧ o = some .present then endVehicleSlots v .asleep s1 else s1) = s2 at h2
  split
  · exact h2
  · split
    · exact h2
    · exact (h2.same (modVehicle_catalogue ..)).trans (kept_endSlotsWhere ..)

/-- An announce ends slots, and does nothing else to the catalogue (R47 to R54). -/
theorem kept_announce (i : LaneIx) (n : Nat) (b : Bool) (items : List AnnounceItem) (s : State) :
    CatalogueKept s (announce i n b items s) := by
  unfold announce
  split
  · split
    · exact kept_same (by simp)
    · rename_i v o s1 h
      have h1 := (kept_announceVehicle i b v o s1).from (announceRecord_catalogue h)
      have h2 := h1.trans (kept_announceItems v n items (announceVehicle i b v o s1, []))
      refine CatalogueKept.same (h2.trans (kept_detachAll _ _)) ((announceEnd_catalogue ..).trans (modVehicle_catalogue ..))
  · exact CatalogueKept.refl s

theorem kept_expectKnown (v : Nat) (i : LaneIx) (d : Option Nat) (s : State) : CatalogueKept s (expectKnown v i d s) := by
  unfold expectKnown
  split
  · exact CatalogueKept.refl s
  · simp only
    split
    · exact kept_same (by simp)
    · exact (kept_endSlotsWhere ..).from (by simp)

theorem kept_departKnown (v : Nat) (s : State) : CatalogueKept s (departKnown v s) := by
  unfold departKnown
  split
  · exact CatalogueKept.refl s
  · split
    · exact CatalogueKept.refl s
    · exact kept_depart ..

/-! ## The dispatcher, lanes and policy -/

/-- A binding takes one reference (R88). -/
theorem kept_bindSlot (k : SlotIx) (c : Candidate) (s : State) : CatalogueKept s (bindSlot k c s) := by
  simp only [bindSlot]
  refine (kept_takeRef c.object s).same ?_
  split <;> simp

theorem withDispatchDue_catalogue (s : State) (d : Bool) : State.catalogue { s with dispatchDue := d } = s.catalogue := rfl

theorem kept_dispatchWalk (k : SlotIx) (s : State) : CatalogueKept s (dispatchWalk k s) := by
  unfold dispatchWalk
  split
  · exact kept_same rfl
  · exact (kept_bindSlot k _ s).same ((chooseAll_catalogue _).trans (withDispatchDue_catalogue _ _))

theorem kept_enterResetting (i : LaneIx) (n : Nat) (s : State) : CatalogueKept s (enterResetting i n s) := by
  unfold enterResetting
  exact ((kept_endSlotsWhere ..).from (abandonTransaction_catalogue s i n)).same (modLane_catalogue ..)

theorem kept_handOutcome (o : Owner) (x : SlotOutcome) (s : State) : CatalogueKept s (handOutcome o x s) := by
  unfold handOutcome
  split
  · exact kept_slotOutcome ..
  all_goals exact CatalogueKept.refl s

theorem kept_failTransaction (i : LaneIx) (t : Transaction) (n : Nat) (s : State) :
    CatalogueKept s (failTransaction i t n s) := (kept_handOutcome ..).from (by simp)

theorem kept_garbledFrame (i : LaneIx) (n : Nat) (s : State) : CatalogueKept s (garbledFrame i n s) := by
  unfold garbledFrame
  split
  · exact kept_same (by simp)
  · exact kept_failTransaction ..

theorem kept_relayAct (i : LaneIx) (f : RelayFrame) (s : State) : CatalogueKept s (relayAct i f s) := by
  unfold relayAct
  split
  · simp only
    split
    · exact (kept_announce ..).same (leaveQuietByFrame_catalogue ..)
    · exact kept_announce ..
  · simp only
    split <;> exact kept_same (by simp)
  · exact CatalogueKept.refl s

theorem kept_goodFrameEnd (i : LaneIx) (f : RelayFrame) (n : Nat) (s : State) : CatalogueKept s (goodFrameEnd i f n s) := by
  unfold goodFrameEnd
  split
  · exact (kept_relayAct ..).from (by simp)
  · exact ((kept_handOutcome ..).from (by simp)).trans (kept_relayAct ..)

theorem kept_receiveBreak (i : LaneIx) (n : Nat) (s : State) : CatalogueKept s (receiveBreak i n s) := by
  simp only [receiveBreak]
  split
  · exact (kept_enterResetting ..).from (by simp)
  · exact ((kept_enterResetting ..).from (by simp)).same (submit_catalogue ..)

theorem kept_switchOff (i : LaneIx) (s : State) : CatalogueKept s (switchOff i s) := by
  simp only [switchOff]
  exact (((kept_endSlotsWhere ..).from (by simp)).trans (kept_departLane ..)).same (modLane_catalogue ..)

theorem withPolicy_catalogue (s : State) (p : Policy) (d : Bool) :
    State.catalogue { s with policy := p, dispatchDue := d } = s.catalogue := rfl

theorem kept_setPolicy (p : Policy) (s : State) : CatalogueKept s (setPolicy p s) := by
  simp only [setPolicy]
  refine CatalogueKept.same (CatalogueKept.foldl (endAtLimit p.retryLimit) (fun t k => ?_) allSlots s) (withPolicy_catalogue ..)
  unfold endAtLimit
  split
  · exact CatalogueKept.refl t
  · split
    · exact kept_endExhausted ..
    · exact CatalogueKept.refl t

theorem kept_setTime (n : Nat) (s : State) : CatalogueKept s (setTime n s) := by
  simp only [setTime]
  have h : (if s.clock.unset = true then restamp n { s with clock := ⟨n, false, s.now + millis 1000⟩ }
      else { s with clock := ⟨n, false, s.now + millis 1000⟩ }).catalogue = s.catalogue := by split <;> rfl
  split
  · exact kept_same h
  · exact (kept_silenceCheckAll _).from h

end Sys2Proof.Machine

/-! PROOFS. Every command outside the catalogue, the merge engine and the resets keeps the catalogue. -/

namespace Sys2Proof.Machine

/-- The next state that a meaning answers, if it answers one, keeps the catalogue. -/
def Keeps (s : State) (r : Result) : Prop := ∀ t, r = .next t → CatalogueKept s t

theorem keeps_next {s t : State} (h : CatalogueKept s t) : Keeps s (.next t) := fun _ e => by cases e; exact h

theorem keeps_same {s t : State} (h : t.catalogue = s.catalogue) : Keeps s (.next t) := keeps_next (kept_same h)

theorem keeps_stay (s : State) : Keeps s (.next s) := keeps_same rfl

/-- The choice points that a command ends with change nothing of the catalogue. -/
theorem keeps_chooseAll {s t : State} (h : CatalogueKept s t) : Keeps s (.next (chooseAll t)) :=
  keeps_next (h.same (chooseAll_catalogue t))

section
variable (s : State)

/-! ## The host link (08) -/

theorem keeps_badFrame (c : LinkCause) (n : Nat) : Keeps s (.next (badFrame c n s)) := keeps_same (submit_catalogue ..)

theorem keeps_hostFrameStart : Keeps s (execHostFrameStart s) := by
  unfold execHostFrameStart
  split <;> exact keeps_same rfl

theorem keeps_hostFrameEnd (bs : List Byte) : Keeps s (execHostFrameEnd bs s) := by
  unfold execHostFrameEnd goodHostFrame
  repeat' split
  · exact keeps_same rfl
  · exact keeps_same (submit_catalogue ..)
  · exact keeps_badFrame s _ _
  · exact keeps_stay s

theorem keeps_hostFrameAbort (bs : List Byte) : Keeps s (execHostFrameAbort bs s) := by
  unfold execHostFrameAbort
  split_ifs
  · exact keeps_badFrame s _ _
  · exact keeps_badFrame s _ _
  · exact keeps_stay s
  · exact keeps_stay s

theorem keeps_hostFrameTimeout (bs : List Byte) : Keeps s (execHostFrameTimeout bs s) := by
  unfold execHostFrameTimeout
  split
  · exact keeps_badFrame s _ _
  · exact keeps_stay s

theorem keeps_hostLinkBreak : Keeps s (execHostLinkBreak s) := by
  unfold execHostLinkBreak
  split <;> exact keeps_same rfl

theorem keeps_hostBreakEnd : Keeps s (execHostBreakEnd s) := by
  unfold execHostBreakEnd
  split <;> exact keeps_same rfl

theorem keeps_requestTake : Keeps s (execRequestTake s) := by
  unfold execRequestTake
  repeat' split
  all_goals exact keeps_same rfl

theorem keeps_transmitStart : Keeps s (execTransmitStart s) := by
  unfold execTransmitStart
  split <;> exact keeps_same rfl

theorem keeps_transmitEnd : Keeps s (execTransmitEnd s) := by
  unfold execTransmitEnd
  split <;> exact keeps_same rfl

theorem keeps_identify : Keeps s (execIdentify s) := by
  unfold execIdentify
  split <;> exact keeps_same rfl

theorem keeps_resetPart : Keeps s (execResetPart s) := by
  unfold execResetPart
  split <;> exact keeps_same rfl

theorem keeps_listObjects : Keeps s (execListObjects s) := by
  unfold execListObjects
  split <;> exact keeps_same rfl

/-! ## The fleet requests (03) -/

theorem keeps_expectVehicle : Keeps s (execExpectVehicle s) := by
  unfold execExpectVehicle
  split
  · unfold expectVehicle
    repeat' split
    · exact keeps_same rfl
    · exact keeps_chooseAll ((kept_expectKnown ..).same (answer_catalogue ..))
    · exact keeps_same rfl
    · rename_i h
      have e := roomForVehicle_catalogue h
      exact keeps_chooseAll (kept_same e)
    · exact keeps_same rfl
  · exact keeps_stay s

theorem keeps_setDeparture : Keeps s (execSetDeparture s) := by
  unfold execSetDeparture
  repeat' split
  all_goals exact keeps_same (by simp)

theorem keeps_departVehicle : Keeps s (execDepartVehicle s) := by
  unfold execDepartVehicle
  repeat' split
  · exact keeps_same rfl
  · exact keeps_chooseAll ((kept_departKnown ..).same (answer_catalogue ..))
  · exact keeps_same rfl
  · exact keeps_stay s

theorem keeps_readVehicle : Keeps s (execReadVehicle s) := by
  unfold execReadVehicle
  repeat' split
  all_goals exact keeps_same rfl

theorem keeps_readValidator : Keeps s (execReadValidator s) := by
  unfold execReadValidator
  repeat' split
  all_goals exact keeps_same rfl

theorem keeps_readRanking : Keeps s (execReadRanking s) := by
  unfold execReadRanking
  split <;> exact keeps_same rfl

theorem keeps_clearFlags : Keeps s (execClearFlags s) := by
  unfold execClearFlags
  repeat' split
  all_goals exact keeps_same rfl

theorem keeps_silenceLimitReached (v : Nat) : Keeps s (execSilenceLimitReached v s) := by
  unfold execSilenceLimitReached
  split
  · exact keeps_stay s
  · exact keeps_chooseAll (kept_silenceCheck ..)

/-! ## Lane requests, policy, clock and scanner (04, 07) -/

theorem keeps_laneOn (g : Byte) (i : LaneIx) (mask : Nat) (f : RawLaneFields) : Keeps s (.next (laneOn g i mask f s)) :=
  keeps_chooseAll (kept_same rfl)

theorem keeps_laneOffRequest (g : Byte) (i : LaneIx) : Keeps s (.next (laneOffRequest g i s)) :=
  keeps_chooseAll ((kept_switchOff i s).same (laneReply_catalogue ..))

theorem keeps_setLane : Keeps s (execSetLane s) := by
  unfold execSetLane
  repeat' split
  · exact keeps_same rfl
  · exact keeps_same rfl
  · exact keeps_laneOn s _ _ _ _
  · exact keeps_chooseAll (kept_same (by simp))
  · exact keeps_same rfl
  · exact keeps_laneOffRequest s _ _
  · exact keeps_stay s

theorem keeps_switchLaneOn : Keeps s (execSwitchLaneOn s) := by
  unfold execSwitchLaneOn
  repeat' split
  · exact keeps_same rfl
  · exact keeps_same rfl
  · exact keeps_laneOn s _ _ _ _
  · exact keeps_stay s
  · exact keeps_stay s

theorem keeps_switchLaneOff : Keeps s (execSwitchLaneOff s) := by
  unfold execSwitchLaneOff
  repeat' split
  · exact keeps_same rfl
  · exact keeps_same rfl
  · exact keeps_same rfl
  · exact keeps_laneOffRequest s _ _
  · exact keeps_stay s
  · exact keeps_stay s

theorem keeps_readLane : Keeps s (execReadLane s) := by
  unfold execReadLane
  repeat' split
  all_goals exact keeps_same rfl

theorem keeps_resetLane : Keeps s (execResetLane s) := by
  unfold execResetLane
  repeat' split
  · exact keeps_same rfl
  · exact keeps_same rfl
  · exact keeps_same rfl
  · exact keeps_chooseAll ((kept_enterResetting ..).same ((answer_catalogue ..).trans (clearFault_catalogue ..)))
  · exact keeps_stay s

theorem keeps_wakeLane : Keeps s (execWakeLane s) := by
  unfold execWakeLane
  repeat' split
  all_goals exact keeps_same rfl

theorem keeps_setPolicy : Keeps s (execSetPolicy s) := by
  unfold execSetPolicy
  split
  · split
    · exact keeps_same rfl
    · exact keeps_chooseAll ((kept_setPolicy ..).same (answer_catalogue ..))
  · exact keeps_stay s

theorem keeps_setTime : Keeps s (execSetTime s) := by
  unfold execSetTime
  split
  · exact keeps_chooseAll ((kept_setTime ..).same (answer_catalogue ..))
  · exact keeps_stay s

theorem keeps_scanNow : Keeps s (execScanNow s) := by
  unfold execScanNow
  repeat' split
  all_goals exact keeps_same rfl

theorem keeps_readSlots : Keeps s (execReadSlots s) := by
  unfold execReadSlots
  split <;> exact keeps_same rfl

theorem keeps_yardClockTick : Keeps s (execYardClockTick s) := by
  simp only [execYardClockTick]
  refine keeps_chooseAll ?_
  split
  · exact kept_same rfl
  · exact (kept_silenceCheckAll _).from rfl

theorem keeps_scanPeriodExpiry : Keeps s (execScanPeriodExpiry s) := by
  unfold execScanPeriodExpiry
  split <;> exact keeps_same rfl

theorem keeps_scanEntryTurn (i : Nat) : Keeps s (execScanEntryTurn i s) := by
  unfold execScanEntryTurn
  repeat' split
  all_goals exact keeps_same (by simp)

theorem keeps_scanComplete : Keeps s (execScanComplete s) := by
  unfold execScanComplete
  repeat' split
  · exact keeps_stay s
  · exact keeps_same (submit_catalogue ..)
  · exact keeps_stay s

theorem keeps_dispatchWalk : Keeps s (execDispatchWalk s) := by
  unfold execDispatchWalk
  repeat' split
  · exact keeps_same rfl
  · exact keeps_next (kept_dispatchWalk ..)
  · exact keeps_stay s

/-! ## Lane rounds, frames and gating (06, 07) -/

theorem keeps_lanePreambleEnd (i : LaneIx) : Keeps s (execLanePreambleEnd i s) := by
  unfold execLanePreambleEnd
  split <;> exact keeps_same (by simp)

theorem keeps_roundEnd (i : LaneIx) (n : Nat) : Keeps s (execRoundEnd i n s) := by
  unfold execRoundEnd
  split <;> exact keeps_same (by simp)

theorem keeps_beaconEnd (i : LaneIx) : Keeps s (execBeaconEnd i s) := by
  unfold execBeaconEnd
  split <;> exact keeps_same rfl

theorem keeps_windowClose (i : LaneIx) : Keeps s (execWindowClose i s) := by
  unfold execWindowClose
  split <;> exact keeps_same (by simp)

theorem keeps_fetchTimeReached (k : SlotIx) : Keeps s (execFetchTimeReached k s) := by
  unfold execFetchTimeReached
  repeat' split
  all_goals exact keeps_same (by simp)

theorem keeps_stateSendEnd (i : LaneIx) : Keeps s (execStateSendEnd i s) := by
  unfold execStateSendEnd
  repeat' split
  all_goals exact keeps_same (by simp)

theorem keeps_replyTimeout (i : LaneIx) : Keeps s (execReplyTimeout i s) := by
  unfold execReplyTimeout
  repeat' split
  · exact keeps_stay s
  · exact keeps_stay s
  · exact keeps_chooseAll ((kept_failTransaction ..).from (advanceTo_catalogue ..))

theorem keeps_transactionBudgetEnd (i : LaneIx) (n : Nat) : Keeps s (execTransactionBudgetEnd i n s) := by
  unfold execTransactionBudgetEnd
  repeat' split
  · exact keeps_stay s
  · exact keeps_stay s
  · exact keeps_chooseAll ((kept_failTransaction ..).from (advanceTo_catalogue ..))

theorem keeps_garbledFrame (i : LaneIx) (n : Nat) (at_ : Time) :
    Keeps s (.next (chooseAll (garbledFrame i n (advanceTo at_ s)))) :=
  keeps_chooseAll ((kept_garbledFrame ..).from (advanceTo_catalogue ..))

theorem keeps_laneFrameReceived (i : LaneIx) (bs : List Byte) (at_ : Time) : Keeps s (execLaneFrameReceived i bs at_ s) := by
  simp only [execLaneFrameReceived]
  repeat' split
  · exact keeps_garbledFrame s _ _ _
  · exact keeps_chooseAll ((kept_goodFrameEnd ..).from (advanceTo_catalogue ..))
  · exact keeps_stay s

theorem keeps_laneFrameIdleEnd (i : LaneIx) (n : Nat) (at_ : Time) : Keeps s (execLaneFrameIdleEnd i n at_ s) := by
  simp only [execLaneFrameIdleEnd]
  split
  · exact keeps_garbledFrame s _ _ _
  · exact keeps_stay s

theorem keeps_laneFrameTooLong (i : LaneIx) (bs : List Byte) (at_ : Time) : Keeps s (execLaneFrameTooLong i bs at_ s) := by
  simp only [execLaneFrameTooLong]
  split
  · exact keeps_garbledFrame s _ _ _
  · exact keeps_stay s

theorem keeps_laneFrameStart (i : LaneIx) (at_ : Time) : Keeps s (execLaneFrameStart i at_ s) := by
  simp only [execLaneFrameStart]
  split <;> exact keeps_same rfl

theorem keeps_quietDelayExpiry (i : LaneIx) : Keeps s (execQuietDelayExpiry i s) := by
  unfold execQuietDelayExpiry
  split <;> exact keeps_same rfl

theorem keeps_quietMaximumExpiry (i : LaneIx) : Keeps s (execQuietMaximumExpiry i s) := by
  unfold execQuietMaximumExpiry
  repeat' split
  all_goals exact keeps_same rfl

theorem keeps_presenceAssert (i : LaneIx) : Keeps s (execPresenceAssert i s) := by
  simp only [execPresenceAssert]
  repeat' split
  · exact keeps_stay s
  · exact keeps_same rfl
  · exact keeps_same (setArrival_catalogue ..)

theorem keeps_presenceDeassert (i : LaneIx) : Keeps s (execPresenceDeassert i s) := by
  simp only [execPresenceDeassert]
  repeat' split
  · exact keeps_same (clearArrival_catalogue ..)
  · exact keeps_same rfl
  · exact keeps_stay s

theorem keeps_laneBreakReceived (i : LaneIx) (n : Nat) (at_ : Time) : Keeps s (execLaneBreakReceived i n at_ s) := by
  simp only [execLaneBreakReceived]
  split
  · exact keeps_chooseAll ((kept_receiveBreak ..).from (advanceTo_catalogue ..))
  · exact keeps_stay s

theorem keeps_laneBreakEnd (i : LaneIx) : Keeps s (execLaneBreakEnd i s) := by
  unfold execLaneBreakEnd
  split <;> exact keeps_same rfl

end

/-! ## All of them -/

/-- The commands that load, discard, publish or merge objects, and the resets. -/
def editsCatalogue : Instr → Bool
  | .powerOn _ | .resetPinRelease _ | .resetPartTakesEffect _ => true
  | .loadOpen | .loadData | .loadClose | .discard => true
  | .publishFareImage | .publishDelta | .publishBase => true
  | .merge | .mergeProgress _ | .mergeComplete | .mergeTooLarge => true
  | _ => false

/-- Every other command keeps the catalogue. -/
theorem keeps_exec (s : State) (c : Instr) (hc : editsCatalogue c = false) : Keeps s (exec c s) := by
  cases c
  case powerOn | resetPinRelease | resetPartTakesEffect | loadOpen | loadData | loadClose | discard | publishFareImage |
      publishDelta | publishBase | merge | mergeProgress | mergeComplete | mergeTooLarge => cases hc
  case resetPinAssert => exact keeps_same rfl
  case hostFrameStart => exact keeps_hostFrameStart s
  case hostFrameEnd bs => exact keeps_hostFrameEnd s bs
  case hostFrameAbort bs => exact keeps_hostFrameAbort s bs
  case hostFrameTimeout bs => exact keeps_hostFrameTimeout s bs
  case hostLinkBreak => exact keeps_hostLinkBreak s
  case hostBreakEnd => exact keeps_hostBreakEnd s
  case requestTake => exact keeps_requestTake s
  case transmitStart => exact keeps_transmitStart s
  case transmitEnd => exact keeps_transmitEnd s
  case identify => exact keeps_identify s
  case resetPart => exact keeps_resetPart s
  case listObjects => exact keeps_listObjects s
  case expectVehicle => exact keeps_expectVehicle s
  case setDeparture => exact keeps_setDeparture s
  case departVehicle => exact keeps_departVehicle s
  case readVehicle => exact keeps_readVehicle s
  case readValidator => exact keeps_readValidator s
  case readRanking => exact keeps_readRanking s
  case clearFlags => exact keeps_clearFlags s
  case setLane => exact keeps_setLane s
  case switchLaneOn => exact keeps_switchLaneOn s
  case switchLaneOff => exact keeps_switchLaneOff s
  case readLane => exact keeps_readLane s
  case resetLane => exact keeps_resetLane s
  case wakeLane => exact keeps_wakeLane s
  case setPolicy => exact keeps_setPolicy s
  case setTime => exact keeps_setTime s
  case scanNow => exact keeps_scanNow s
  case readSlots => exact keeps_readSlots s
  case yardClockTick => exact keeps_yardClockTick s
  case silenceLimitReached v => exact keeps_silenceLimitReached s v
  case scanPeriodExpiry => exact keeps_scanPeriodExpiry s
  case scanEntryTurn i => exact keeps_scanEntryTurn s i
  case scanComplete => exact keeps_scanComplete s
  case dispatchWalk => exact keeps_dispatchWalk s
  case lanePreambleEnd i => exact keeps_lanePreambleEnd s i
  case roundEnd i n => exact keeps_roundEnd s i n
  case beaconEnd i => exact keeps_beaconEnd s i
  case windowClose i => exact keeps_windowClose s i
  case fetchTimeReached k => exact keeps_fetchTimeReached s k
  case stateSendEnd i => exact keeps_stateSendEnd s i
  case laneFrameReceived i bs t => exact keeps_laneFrameReceived s i bs t
  case laneFrameIdleEnd i n t => exact keeps_laneFrameIdleEnd s i n t
  case replyTimeout i => exact keeps_replyTimeout s i
  case transactionBudgetEnd i n => exact keeps_transactionBudgetEnd s i n
  case quietDelayExpiry i => exact keeps_quietDelayExpiry s i
  case quietMaximumExpiry i => exact keeps_quietMaximumExpiry s i
  case presenceAssert i => exact keeps_presenceAssert s i
  case presenceDeassert i => exact keeps_presenceDeassert s i
  case laneBreakReceived i n t => exact keeps_laneBreakReceived s i n t
  case laneBreakEnd i => exact keeps_laneBreakEnd s i
  case laneFrameStart i t => exact keeps_laneFrameStart s i t
  case laneFrameTooLong i bs t => exact keeps_laneFrameTooLong s i bs t

end Sys2Proof.Machine

/-! PROOFS. What the commands of the catalogue and of the merge engine can do to the catalogue, once for all that follows. -/

namespace Sys2Proof.Machine

/-- The state with a merge job started: its BUILDING result created and a reference taken on each source (R31). -/
def mergeStarted (j : MergeJob) (n : Nat) (mk : List Nat → ContentObject) (s : State) : State :=
  { j.sources.foldl (fun t o => takeRef o t) (createObject j.result n mk s) with merge := some j }

/-- The state with further entries of a merge written (R32). -/
def mergeProgressed (j : MergeJob) (r : ContentObject) (n voids : Nat) (c : Memory) (s : State) : State :=
  { s with content := c, objects := put s.objects j.result { r with received := r.received + 9 * n },
           merge := some { j with entriesWritten := j.entriesWritten + n, voidRemovals := voids } }

/-- The state with the header of a complete merge written and its block list shortened (R35, steps 1 and 2). -/
def mergeFinished (j : MergeJob) (r : ContentObject) (c : Memory) (s : State) : State :=
  { s with content := c, objects := put s.objects j.result (finishResult j j.entriesWritten c r),
           pool := s.pool ++ r.blocks.drop (ceilDiv (16 + 9 * j.entriesWritten) Config.blockSize) }

/-- What one command of the catalogue or of the merge engine makes of a state, apart from its reply. -/
inductive CatalogueEdit (s : State) : State → Prop where
  /-- A refusal, or a command that cannot come about. -/
  | stay : CatalogueEdit s s
  /-- LOAD_OPEN (R7). -/
  | opened (id n : Nat) (mk : List Nat → ContentObject) (hu : unusedObject s = some id) (hb : ∀ l, (mk l).blocks = l)
      (hc : ∀ l, (mk l).entryCount = none ∧ (mk l).addCount = none) : CatalogueEdit s (createObject id n mk s)
  /-- LOAD_DATA (R8). -/
  | loaded (o : Nat) (r : ContentObject) (offset n : Nat) (bs : List Byte) (c : Memory) (hr : look s.objects o = some r)
      (hw : writeObject r offset bs s.content = some c) :
      CatalogueEdit s { s with content := c, objects := put s.objects o { r with received := n } }
  /-- A LOADING or STAGED object is freed (R9, R10, R12). -/
  | freed (o : Nat) (r : ContentObject) (hr : look s.objects o = some r) (hs : r.state = .loading ∨ r.state = .staged) :
      CatalogueEdit s (freeObject o s)
  /-- LOAD_CLOSE (R10). -/
  | closed (o : Nat) (r q : ContentObject) (hr : look s.objects o = some r) (hs : r.state = .loading)
      (hq : q.state = .staged) (hb : q.blocks = r.blocks) : CatalogueEdit s { s with objects := put s.objects o q }
  /-- PUBLISH of the fare image (R14). -/
  | fare (o : Nat) (ho : objectOf s .fareImage .staged = some o) : CatalogueEdit s (publishFare o s)
  /-- PUBLISH of the delta (R15). -/
  | delta (o : Nat) (b : BlockRecord) (ho : objectOf s .delta .staged = some o) (hb : s.block = some b) :
      CatalogueEdit s (publishDelta o b s)
  /-- The first PUBLISH of a base (R17). -/
  | first (o : Nat) (ho : objectOf s .base .staged = some o) (hb : s.block = none) : CatalogueEdit s (startChain o s)
  /-- A later PUBLISH of a base (R16). -/
  | rebased (o : Nat) (b : BlockRecord) (ho : objectOf s .base .staged = some o) (hb : s.block = some b) :
      CatalogueEdit s (rebase o b s)
  /-- MERGE (R31). -/
  | started (j : MergeJob) (n : Nat) (mk : List Nat → ContentObject) (hu : unusedObject s = some j.result)
      (hb : ∀ l, (mk l).blocks = l) (hk : ∀ l, (mk l).kind = .base ∧ (mk l).state = .building) :
      CatalogueEdit s (mergeStarted j n mk s)
  /-- MERGE_PROGRESS (R32). -/
  | progressed (j : MergeJob) (r : ContentObject) (offset n voids : Nat) (bs : List Byte) (c : Memory) (hj : s.merge = some j)
      (hr : look s.objects j.result = some r) (hw : writeObject r offset bs s.content = some c) :
      CatalogueEdit s (mergeProgressed j r n voids c s)
  /-- MERGE_COMPLETE (R35). -/
  | completed (j : MergeJob) (r : ContentObject) (voids offset : Nat) (bs : List Byte) (c : Memory) (hj : s.merge = some j)
      (hr : look s.objects j.result = some r) (hw : writeObject r offset bs s.content = some c) :
      CatalogueEdit s (retireSources j.sources (settleMerge j j.entriesWritten voids (mergeFinished j r c s)))
  /-- A merge that ends without a result (R34, R37). -/
  | aborted (j : MergeJob) (reason : MergeFailure) (n : Nat) (hj : s.merge = some j) :
      CatalogueEdit s (retireSources j.sources (failMerge j reason n s))

/-- The next state that a meaning answers, if it answers one, has the catalogue of an edit. -/
def Edits (s : State) (r : Result) : Prop := ∀ t, r = .next t → ∃ u, CatalogueEdit s u ∧ t.catalogue = u.catalogue

theorem edits_next {s t u : State} (h : CatalogueEdit s u) (e : t.catalogue = u.catalogue) : Edits s (.next t) :=
  fun _ k => by cases k; exact ⟨u, h, e⟩

theorem edits_stay {s t : State} (e : t.catalogue = s.catalogue) : Edits s (.next t) := edits_next .stay e

/-- Choice points and a reply leave the edit as it is. -/
theorem edits_published {s u : State} {g : Byte} {f : Option (Nat × Nat)} (h : CatalogueEdit s u) :
    Edits s (.next (chooseAll (publishReply g f u))) :=
  edits_next h ((chooseAll_catalogue _).trans (answer_catalogue ..))

section
variable (s : State)

theorem edits_loadOpen : Edits s (execLoadOpen s) := by
  unfold execLoadOpen loadOpen
  repeat' split
  · exact edits_stay rfl
  · exact edits_stay rfl
  · exact edits_stay rfl
  · exact edits_stay rfl
  · exact edits_stay rfl
  · rename_i id hu _
    exact edits_next (.opened id _ (loadingObject _ _ _ _ _) hu (fun _ => rfl) (fun _ => ⟨rfl, rfl⟩)) rfl
  · exact edits_stay rfl
  · exact edits_stay rfl

theorem edits_loadData : Edits s (execLoadData s) := by
  unfold execLoadData
  split
  · unfold loadData
    split
    · exact edits_stay rfl
    · rename_i r hr
      split_ifs
      · exact edits_stay rfl
      · exact edits_stay rfl
      · exact edits_stay rfl
      · exact edits_stay rfl
      · split
        · intro _ e
          cases e
        · rename_i c hc
          exact edits_next (.loaded _ r _ _ _ c hr hc) rfl
  · exact edits_stay rfl

theorem stagedObject_state (r : ContentObject) (bs : List Byte) : (stagedObject r bs).state = .staged := by
  unfold stagedObject
  split <;> rfl

theorem stagedObject_blocks (r : ContentObject) (bs : List Byte) : (stagedObject r bs).blocks = r.blocks := by
  unfold stagedObject
  split <;> rfl

theorem edits_closeLoading (g : Byte) (o : Nat) (r : ContentObject) (bs : List Byte) (hr : look s.objects o = some r)
    (hs : r.state = .loading) : Edits s (.next (closeLoading g o r bs s)) := by
  have free : ∀ st fs, Edits s (.next (closeFreed g o st fs s)) := fun _ _ => edits_next (.freed o r hr (Or.inl hs)) rfl
  unfold closeLoading
  repeat' split
  · exact free _ _
  · exact free _ _
  · exact free _ _
  · exact free _ _
  · exact edits_stay rfl
  · exact edits_next (.closed o r _ hr hs (stagedObject_state r bs) (stagedObject_blocks r bs)) rfl

theorem edits_loadClose : Edits s (execLoadClose s) := by
  unfold execLoadClose
  split
  · split
    · exact edits_stay rfl
    · rename_i r hr
      split
      · exact edits_stay rfl
      · rename_i hs
        exact edits_closeLoading s _ _ r _ hr (not_not.1 hs)
  · exact edits_stay rfl

theorem edits_discardMerge (g : Byte) : Edits s (.next (answer 0x06 g .ok [] (discardMerge s))) := by
  unfold discardMerge
  split
  · exact edits_stay rfl
  · rename_i j hj
    exact edits_next (.aborted j _ _ hj) (answer_catalogue ..)

theorem edits_discard : Edits s (execDiscard s) := by
  unfold execDiscard objectState
  split
  · rename_i g o _
    cases hr : look s.objects o with
    | none => exact edits_stay rfl
    | some r =>
      cases hs : r.state <;> simp only [Option.map_some, hs]
      · exact edits_next (.freed o r hr (Or.inl hs)) rfl
      · exact edits_discardMerge s g
      · exact edits_next (.freed o r hr (Or.inr hs)) rfl
      · exact edits_stay rfl
      · exact edits_stay rfl
  · exact edits_stay rfl

theorem edits_publishFareImage : Edits s (execPublishFareImage s) := by
  unfold execPublishFareImage
  repeat' split
  · exact edits_stay rfl
  · exact edits_stay rfl
  · rename_i o ho
    exact edits_published (.fare o ho)
  · exact edits_stay rfl
  · exact edits_stay rfl

theorem edits_publishDelta : Edits s (execPublishDelta s) := by
  unfold execPublishDelta
  split
  · split
    · exact edits_stay rfl
    · split
      · exact edits_stay rfl
      · exact edits_stay rfl
      · rename_i o b ho hb
        split
        · exact edits_published (.delta o b ho hb)
        · exact edits_stay rfl
    · exact edits_stay rfl
  · exact edits_stay rfl

theorem edits_publishBase : Edits s (execPublishBase s) := by
  unfold execPublishBase
  split
  · split
    · exact edits_stay rfl
    · split
      · exact edits_stay rfl
      · rename_i o ho
        split
        · rename_i hb
          exact edits_published (.first o ho hb)
        · rename_i b hb
          exact edits_published (.rebased o b ho hb)
    · exact edits_stay rfl
  · exact edits_stay rfl

theorem edits_merge : Edits s (execMerge s) := by
  simp only [execMerge, startMerge]
  split
  · split
    · exact edits_stay rfl
    · rename_i b _
      repeat' split
      · exact edits_stay rfl
      · exact edits_stay rfl
      · rename_i id _ hu _
        exact edits_next (.started ⟨id, b.head, b.baseObject :: b.chain, 0, 0⟩ _ (fun bl =>
          ⟨.base, b.head, worstCaseSize s b, 0, 0, bl, none, none, .building, 0, none⟩) hu (fun _ => rfl)
          (fun _ => ⟨rfl, rfl⟩)) rfl
      · exact edits_stay rfl
      · exact edits_stay rfl
  · exact edits_stay rfl

theorem edits_mergeProgress (n : Nat) : Edits s (execMergeProgress n s) := by
  simp only [execMergeProgress]
  split
  · exact edits_stay rfl
  · rename_i j hj
    split
    · exact edits_stay rfl
    · rename_i r hr
      repeat' split
      · intro _ e
        cases e
      · rename_i c hc
        refine edits_next (.progressed j r _ n (voidsUpTo (mergedState s j) (j.entriesWritten + n)) _ c hj hr hc) ?_
        simp [State.catalogue, mergeProgressed, modObject, hr]
      · exact edits_stay rfl

theorem edits_mergeComplete : Edits s (execMergeComplete s) := by
  simp only [execMergeComplete]
  split
  · exact edits_stay rfl
  · rename_i j hj
    split
    · exact edits_stay rfl
    · rename_i r hr
      repeat' split
      · intro _ e
        cases e
      · rename_i c hc
        exact edits_next (.completed j r _ _ _ c hj hr hc) rfl
      · exact edits_stay rfl

theorem edits_mergeTooLarge : Edits s (execMergeTooLarge s) := by
  unfold execMergeTooLarge
  split
  · exact edits_stay rfl
  · rename_i j hj
    split_ifs
    · exact edits_next (.aborted j _ _ hj) rfl
    · exact edits_stay rfl

end

/-- A command keeps the catalogue, edits it, or resets the part. -/
theorem exec_cases (s t : State) (c : Instr) (h : exec c s = .next t) :
    CatalogueKept s t ∨ (∃ u, CatalogueEdit s u ∧ t.catalogue = u.catalogue) ∨
      ∃ cause straps pin, t = State.start cause straps pin s.pending := by
  by_cases hc : editsCatalogue c = false
  · exact Or.inl (keeps_exec s c hc t h)
  · have edit : Edits s (exec c s) → CatalogueKept s t ∨ (∃ u, CatalogueEdit s u ∧ t.catalogue = u.catalogue) ∨
      ∃ cause straps pin, t = State.start cause straps pin s.pending := fun e => Or.inr (Or.inl (e t h))
    cases c
    case powerOn p =>
      cases h
      exact Or.inr (Or.inr ⟨_, _, _, rfl⟩)
    case resetPinRelease p =>
      simp only [exec, execResetPinRelease] at h
      split at h <;> cases h
      · exact Or.inr (Or.inr ⟨_, _, _, rfl⟩)
      · exact Or.inl (CatalogueKept.refl _)
    case resetPartTakesEffect p =>
      simp only [exec, execResetPartTakesEffect] at h
      split at h <;> cases h
      · exact Or.inr (Or.inr ⟨_, _, _, rfl⟩)
      · exact Or.inl (CatalogueKept.refl _)
    case loadOpen => exact edit (edits_loadOpen s)
    case loadData => exact edit (edits_loadData s)
    case loadClose => exact edit (edits_loadClose s)
    case discard => exact edit (edits_discard s)
    case publishFareImage => exact edit (edits_publishFareImage s)
    case publishDelta => exact edit (edits_publishDelta s)
    case publishBase => exact edit (edits_publishBase s)
    case merge => exact edit (edits_merge s)
    case mergeProgress n => exact edit (edits_mergeProgress s n)
    case mergeComplete => exact edit (edits_mergeComplete s)
    case mergeTooLarge => exact edit (edits_mergeTooLarge s)
    all_goals exact absurd rfl hc

end Sys2Proof.Machine

/-! PROOFS. The edits of the catalogue keep the canonical form of content memory, the account of blocks and what the records name; with the
commands that keep the catalogue this settles the invariants of the catalogue. -/

namespace Sys2Proof.Machine

/-! ## Content memory (R1, R8, R32, R35) -/

theorem contentOk_of_eq {s t : State} (h : t.content = s.content) (hs : ContentOk s) : ContentOk t := by
  unfold ContentOk
  rw [h]
  exact hs

theorem contentOk_edit {s u : State} (e : CatalogueEdit s u) (h : ContentOk s) : ContentOk u := by
  cases e with
  | stay => exact h
  | opened id n mk => exact contentOk_of_eq (createObject_content id n mk s) h
  | loaded o r offset n bs c hr hw => exact wf_writeObject r bs offset s.content c h hw
  | freed o => exact contentOk_of_eq (freeObject_content o s) h
  | closed => exact h
  | fare o => exact contentOk_of_eq (inside_publishFare o s).content h
  | delta o b => exact contentOk_of_eq (inside_publishDelta o b s).content h
  | first o => exact contentOk_of_eq (inside_startChain o s).content h
  | rebased o b => exact contentOk_of_eq (inside_rebase o b s).content h
  | started j n mk =>
    exact contentOk_of_eq ((Inside.foldl _ (fun t o => inside_takeRef o t) j.sources (createObject j.result n mk s)).content) h
  | progressed j r offset n voids bs c hj hr hw => exact wf_writeObject r bs offset s.content c h hw
  | completed j r voids offset bs c hj hr hw =>
    have hc : ContentOk (mergeFinished j r c s) := wf_writeObject r bs offset s.content c h hw
    exact contentOk_of_eq ((inside_settleMerge j _ _ _).trans (inside_retireSources j.sources _)).content hc
  | aborted j reason n => exact contentOk_of_eq ((inside_failMerge j reason n s).trans (inside_retireSources j.sources _)).content h

/-- A command keeps the canonical form of content memory. -/
theorem contentOk_exec (s t : State) (c : Instr) (hs : ContentOk s) (h : exec c s = .next t) : ContentOk t := by
  rcases exec_cases s t c h with k | ⟨u, e, k⟩ | ⟨cause, p, pin, rfl⟩
  · exact contentOk_of_eq k.content hs
  · exact contentOk_of_eq (kept_same k).content (contentOk_edit e hs)
  · exact wf_nil

/-- Settles O57: exec_cases tells what a command does to the catalogue, and only an edit writes content memory. -/
theorem stepKeepsContentForm : Obligations.StepKeepsContentForm := by
  intro s t hs h
  unfold step at h
  split at h
  · cases h
    exact hs
  · rename_i c rest _
    exact contentOk_exec { s with pending := rest } t c hs h

/-! ## The account of blocks (R1, R11) -/

theorem blocksOk_of_eq {s t : State} (ho : t.objects = s.objects) (hp : t.pool = s.pool) (h : BlocksOk s) : BlocksOk t := by
  unfold BlocksOk allBlocks
  rw [ho, hp]
  exact h

/-- Erasing an entry takes out what was put there. -/
theorem erase_put_same {α : Type} (cap : Nat) (t : Table α) (k : Nat) (a : α) :
    ∀ from_, tableWf cap from_ t = true → erase (put t k a) k = erase t k := by
  induction t with
  | nil => intro _ _; simp [put, erase]
  | cons p t ih =>
    obtain ⟨i, b⟩ := p
    intro from_ hw
    simp only [tableWf, Bool.and_eq_true, decide_eq_true_eq] at hw
    simp only [put]
    split_ifs with h1 h2
    · have hn : ∀ (u : Table α) (n : Nat), tableWf cap n u = true → k < n → erase u k = u := by
        intro u
        induction u with
        | nil => intro _ _ _; rfl
        | cons q u ihu =>
          intro n hu hk
          simp only [tableWf, Bool.and_eq_true, decide_eq_true_eq] at hu
          simp only [erase]
          rw [if_neg (by omega), ihu (q.1 + 1) hu.2 (by omega)]
      simp only [erase, if_true]
      rw [if_neg (by omega), hn t (i + 1) hw.2 (by omega)]
    · simp [erase, h2]
    · simp only [erase]
      rw [if_neg (Ne.symm h2), if_neg (Ne.symm h2), ih (i + 1) hw.2]

/-- The blocks of a table of objects after an entry in use is replaced. -/
theorem tableBlocks_put (cap : Nat) (t : Table ContentObject) (o : Nat) (r q : ContentObject) (hw : tableWf cap 0 t = true)
    (hr : look t o = some r) : (r.blocks ++ tableBlocks (put t o q)).Perm (q.blocks ++ tableBlocks t) := by
  have new := tableBlocks_erase (put t o q) o q (look_put_same ..)
  rw [erase_put_same cap t o q 0 hw] at new
  calc (r.blocks ++ tableBlocks (put t o q)).Perm (r.blocks ++ (q.blocks ++ tableBlocks (erase t o))) := new.symm.append_left _
    List.Perm _ (q.blocks ++ (r.blocks ++ tableBlocks (erase t o))) := List.perm_append_comm_assoc ..
    List.Perm _ (q.blocks ++ tableBlocks t) := (tableBlocks_erase t o r hr).append_left _

/-- The blocks that the completion takes off a result's list return to the pool (R35, step 2). -/
theorem blocksOk_mergeFinished (s : State) (j : MergeJob) (r : ContentObject) (c : Memory) (h : BlocksOk s)
    (hr : look s.objects j.result = some r) : BlocksOk (mergeFinished j r c s) := by
  refine ⟨tableWf_put _ _ _ _ 0 (Nat.zero_le _) (objectId_lt s _ r h hr) h.1, List.Perm.trans ?_ h.2⟩
  generalize hn : ceilDiv (16 + 9 * j.entriesWritten) Config.blockSize = n
  have moved := tableBlocks_put _ s.objects j.result r (finishResult j j.entriesWritten c r) h.1 hr
  have kept : (finishResult j j.entriesWritten c r).blocks = r.blocks.take n := by rw [← hn]; rfl
  rw [kept] at moved
  conv at moved => lhs; lhs; rw [← List.take_append_drop n r.blocks]
  rw [List.append_assoc] at moved
  rw [allBlocks_eq, allBlocks_eq]
  simp only [mergeFinished, hn]
  rw [List.append_assoc]
  exact ((List.perm_append_left_iff _).1 moved).append_left _

theorem blocksOk_takeRefs (ids : List Nat) (s : State) (h : BlocksOk s) : BlocksOk (ids.foldl (fun t o => takeRef o t) s) :=
  (Inside.foldl _ (fun t o => inside_takeRef o t) ids s).blocks h

theorem blocksOk_edit {s u : State} (e : CatalogueEdit s u) (h : BlocksOk s) : BlocksOk u := by
  cases e with
  | stay => exact h
  | opened id n mk hu hb => exact blocksOk_createObject s id n mk h hu hb
  | loaded o r offset n bs c hr => exact blocksOk_of_eq rfl rfl (blocksOk_replace s o r { r with received := n } h hr rfl)
  | freed o => exact (inside_freeObject o s).blocks h
  | closed o r q hr _ _ hb => exact blocksOk_replace s o r q h hr hb
  | fare o => exact (inside_publishFare o s).blocks h
  | delta o b => exact (inside_publishDelta o b s).blocks h
  | first o => exact (inside_startChain o s).blocks h
  | rebased o b => exact (inside_rebase o b s).blocks h
  | started j n mk hu hb =>
    exact blocksOk_of_eq rfl rfl (blocksOk_takeRefs j.sources _ (blocksOk_createObject s j.result n mk h hu hb))
  | progressed j r offset n voids bs c hj hr =>
    exact blocksOk_of_eq rfl rfl (blocksOk_replace s j.result r { r with received := r.received + 9 * n } h hr rfl)
  | completed j r voids offset bs c hj hr =>
    exact ((inside_settleMerge j _ _ _).trans (inside_retireSources j.sources _)).blocks (blocksOk_mergeFinished s j r c h hr)
  | aborted j reason n => exact ((inside_failMerge j reason n s).trans (inside_retireSources j.sources _)).blocks h

/-! ## What the records name (R3, R29) -/

/-- No record names the object at an id. -/
structure NotNamed (s : State) (o : Nat) : Prop where
  fare : ∀ f, s.fare = some f → f.image ≠ o
  base : ∀ b, s.block = some b → b.baseObject ≠ o
  chain : ∀ b, s.block = some b → o ∉ b.chain
  result : ∀ j, s.merge = some j → j.result ≠ o

/-- What the records name is the same when the objects and the records are. -/
theorem RecordsOk.of_eq {s t : State} (h : RecordsOk s) (ho : t.objects = s.objects) (hf : t.fare = s.fare)
    (hb : t.block = s.block) (hm : t.merge = s.merge) : RecordsOk t := by
  have is : ∀ {o k st}, ObjectIs s o k st → ObjectIs t o k st := by
    intro o k st
    unfold ObjectIs
    rw [ho]
    exact id
  exact ⟨fun f e => is (h.fare f (hf ▸ e)), fun b e => is (h.base b (hb ▸ e)), fun b e d hd => is (h.chain b (hb ▸ e) d hd),
    fun j e => is (h.result j (hm ▸ e)), fun o r e => h.loading o r (ho ▸ e)⟩

/-- An object that is neither PUBLISHED nor BUILDING is not named, and neither is an unused entry. -/
theorem notNamed_of_state {s : State} (h : RecordsOk s) (o : Nat)
    (hs : ∀ r, look s.objects o = some r → r.state ≠ .published ∧ r.state ≠ .building) : NotNamed s o := by
  have pub : ∀ {d k}, ObjectIs s d k .published → d ≠ o := by
    rintro d k ⟨r, hr, _, hst⟩ rfl
    exact (hs r hr).1 hst
  refine ⟨fun f e => pub (h.fare f e), fun b e => pub (h.base b e), fun b e hd => pub (h.chain b e o hd) rfl, ?_⟩
  rintro j e rfl
  obtain ⟨r, hr, _, hst⟩ := h.result j e
  exact (hs r hr).2 hst

/-- The objects that the records name are the same, and no new object is LOADING with counts: the records are kept. -/
theorem recordsOk_of_look {s t : State} (h : RecordsOk s) (hf : t.fare = s.fare) (hb : t.block = s.block) (hm : t.merge = s.merge)
    (hl : ∀ o, ¬NotNamed s o → look t.objects o = look s.objects o)
    (hn : ∀ o r, look t.objects o = some r → r.state = .loading → r.entryCount = none ∧ r.addCount = none) : RecordsOk t := by
  have is : ∀ {o k st}, ¬NotNamed s o → ObjectIs s o k st → ObjectIs t o k st := by
    intro o k st hno
    unfold ObjectIs
    rw [hl o hno]
    exact id
  exact {
    fare := fun f e => is (fun n => n.fare f (hf ▸ e) rfl) (h.fare f (hf ▸ e))
    base := fun b e => is (fun n => n.base b (hb ▸ e) rfl) (h.base b (hb ▸ e))
    chain := fun b e d hd => is (fun n => n.chain b (hb ▸ e) hd) (h.chain b (hb ▸ e) d hd)
    result := fun j e => is (fun n => n.result j (hm ▸ e) rfl) (h.result j (hm ▸ e))
    loading := hn }

/-- An object that no record names may be replaced, or a new one put into an unused entry. -/
theorem recordsOk_put {s : State} (h : RecordsOk s) (o : Nat) (q : ContentObject) (hn : NotNamed s o)
    (hq : q.state = .loading → q.entryCount = none ∧ q.addCount = none) : RecordsOk { s with objects := put s.objects o q } := by
  refine recordsOk_of_look h rfl rfl rfl (fun d hd => look_put_other _ _ _ _ (fun e => hd (e ▸ hn))) (fun d r hr hs => ?_)
  by_cases e : d = o
  · subst e
    rw [look_put_same] at hr
    cases hr
    exact hq hs
  · rw [look_put_other _ _ _ _ e] at hr
    exact h.loading d r hr hs

/-- An object may be replaced by one of its kind and state with its counts. -/
theorem recordsOk_put_alike {s : State} (h : RecordsOk s) (o : Nat) (r q : ContentObject) (hr : look s.objects o = some r)
    (hk : q.kind = r.kind) (hs : q.state = r.state)
    (hq : q.state = .loading → q.entryCount = r.entryCount ∧ q.addCount = r.addCount) :
    RecordsOk { s with objects := put s.objects o q } := by
  have is : ∀ {d k st}, ObjectIs s d k st → ObjectIs { s with objects := put s.objects o q } d k st := by
    rintro d k st ⟨x, hx, hxk, hxs⟩
    by_cases e : d = o
    · subst e
      rw [hr] at hx
      cases hx
      exact ⟨q, look_put_same .., hk.trans hxk, hs.trans hxs⟩
    · exact ⟨x, (look_put_other _ _ _ _ e).trans hx, hxk, hxs⟩
  refine ⟨fun f e => is (h.fare f e), fun b e => is (h.base b e), fun b e d hd => is (h.chain b e d hd),
    fun j e => is (h.result j e), fun d x hx hl => ?_⟩
  by_cases e : d = o
  · subst e
    rw [look_put_same] at hx
    cases hx
    obtain ⟨h1, h2⟩ := h.loading d r hr (hs ▸ hl)
    obtain ⟨h3, h4⟩ := hq hl
    exact ⟨h3.trans h1, h4.trans h2⟩
  · rw [look_put_other _ _ _ _ e] at hx
    exact h.loading d x hx hl

/-- An object that no record names takes another state than LOADING. -/
theorem recordsOk_setObjectState {s : State} (h : RecordsOk s) (o : Nat) (st : ObjState) (hn : NotNamed s o) (hst : st ≠ .loading) :
    RecordsOk (setObjectState o st s) := by
  unfold setObjectState modObject
  split
  · exact h
  · exact recordsOk_put h o _ hn (fun e => absurd e hst)

/-- An object that no record names is freed. -/
theorem recordsOk_freeObject {s : State} (h : RecordsOk s) (hb : BlocksOk s) (o : Nat) (hn : NotNamed s o) :
    RecordsOk (freeObject o s) := by
  refine recordsOk_of_look h (freeObject_fare ..) (freeObject_block ..) (freeObject_merge ..) (fun d hd => ?_) (fun d r hr => ?_)
  · rw [look_freeObject _ _ _ hb.1, if_neg (fun (e : d = o) => hd (e ▸ hn))]
  · rw [look_freeObject _ _ _ hb.1] at hr
    split at hr
    · cases hr
    · exact h.loading d r hr

/-- Records that name fewer objects, or others of the right kind and state, over the same objects. -/
theorem RecordsOk.rename {s t : State} (h : RecordsOk s) (ho : t.objects = s.objects)
    (hf : t.fare = s.fare ∨ ∀ f, t.fare = some f → ObjectIs s f.image .fareImage .published)
    (hb : t.block = s.block ∨ ∀ b, t.block = some b → ObjectIs s b.baseObject .base .published ∧
      ∀ d ∈ b.chain, ObjectIs s d .delta .published)
    (hm : t.merge = s.merge ∨ ∀ j, t.merge = some j → ObjectIs s j.result .base .building) : RecordsOk t := by
  have is : ∀ {o k st}, ObjectIs s o k st → ObjectIs t o k st := by
    intro o k st
    unfold ObjectIs
    rw [ho]
    exact id
  refine ⟨fun f e => is ?_, fun b e => is ?_, fun b e d hd => is ?_, fun j e => is ?_, fun o r e => h.loading o r (ho ▸ e)⟩
  · rcases hf with hf | hf
    · exact h.fare f (hf ▸ e)
    · exact hf f e
  · rcases hb with hb | hb
    · exact h.base b (hb ▸ e)
    · exact (hb b e).1
  · rcases hb with hb | hb
    · exact h.chain b (hb ▸ e) d hd
    · exact (hb b e).2 d hd
  · rcases hm with hm | hm
    · exact h.result j (hm ▸ e)
    · exact hm j e

/-! ### The ends of a merge (R35, R36, R38) -/

theorem modObject_withMerge (o : Nat) (f : ContentObject → ContentObject) (m : Option MergeJob) (s : State) :
    modObject o f { s with merge := m } = { modObject o f s with merge := m } := by
  unfold modObject
  dsimp only
  split <;> rfl

theorem freeObject_withMerge (o : Nat) (m : Option MergeJob) (s : State) :
    freeObject o { s with merge := m } = { freeObject o s with merge := m } := by
  unfold freeObject
  dsimp only
  split <;> rfl

/-- The references of a job's sources are dropped with the engine IDLE before or after. -/
theorem releaseSources_eq (j : MergeJob) (s : State) :
    releaseSources j s = j.sources.foldl (fun t o => releaseRef o t) { s with merge := none } := by
  unfold releaseSources
  generalize j.sources = ids
  induction ids generalizing s with
  | nil => rfl
  | cons a ids ih =>
    simp only [List.foldl_cons]
    rw [ih, releaseRef, ← modObject_withMerge]
    rfl

theorem kept_releaseSources (j : MergeJob) (s : State) : CatalogueKept { s with merge := none } (releaseSources j s) := by
  rw [releaseSources_eq]
  exact CatalogueKept.foldl _ (fun t o => kept_releaseRef o t) j.sources _

/-- The result of the running merge is named by its job alone. -/
theorem notNamed_result {s : State} (h : RecordsOk s) {j : MergeJob} (hj : s.merge = some j) :
    NotNamed { s with merge := none } j.result := by
  obtain ⟨r, hr, _, hst⟩ := h.result j hj
  have pub : ∀ {d k}, ObjectIs s d k .published → d ≠ j.result := by
    rintro d k ⟨x, hx, _, hxs⟩ rfl
    rw [hr] at hx
    cases hx
    rw [hst] at hxs
    cases hxs
  exact ⟨fun f e => pub (h.fare f e), fun b e => pub (h.base b e), fun b e hd => pub (h.chain b e _ hd) rfl, fun k e => by cases e⟩

/-- The state with the engine IDLE. -/
theorem recordsOk_mergeIdle {s : State} (h : RecordsOk s) : RecordsOk { s with merge := none } :=
  h.rename rfl (Or.inl rfl) (Or.inl rfl) (Or.inr (fun j e => by cases e))

theorem recordsOk_failMerge {s : State} (h : RecordsOk s) (hb : BlocksOk s) {j : MergeJob} (hj : s.merge = some j)
    (reason : MergeFailure) (n : Nat) : RecordsOk (failMerge j reason n s) := by
  have idle : BlocksOk { s with merge := none } := hb
  have freed := recordsOk_freeObject (recordsOk_mergeIdle h) idle j.result (notNamed_result h hj)
  have k := kept_releaseSources j (freeObject j.result s)
  rw [← freeObject_withMerge] at k
  exact (k.same (submit_catalogue ..)).records ((inside_freeObject j.result _).blocks idle) freed

theorem recordsOk_settleMerge {s : State} (h : RecordsOk s) (hb : BlocksOk s) {j : MergeJob} (hj : s.merge = some j) (n voids : Nat) :
    RecordsOk (settleMerge j n voids s) := by
  unfold settleMerge
  split
  · exact recordsOk_failMerge h hb hj _ _
  · have idle : BlocksOk { s with merge := none } := hb
    have staged := recordsOk_setObjectState (recordsOk_mergeIdle h) j.result .staged (notNamed_result h hj) (by decide)
    have k := kept_releaseSources j (setObjectState j.result .staged s)
    rw [setObjectState, ← modObject_withMerge] at k
    exact (k.same (submit_catalogue ..)).records ((inside_setObjectState j.result .staged _).blocks idle) staged

/-! ### The publishes (R14 to R18) -/

theorem kept_handOff (first : Option Stream) (retired released : List Nat) (s : State) :
    CatalogueKept s (handOff first retired released s) := by
  simp only [handOff]
  have told : (retired.foldl (fun t o => retireSlots o t) s).catalogue = s.catalogue :=
    foldl_catalogue s _ (fun t o => retireSlots_catalogue t o) retired
  have freed := (CatalogueKept.foldl _ (fun t o => kept_retireIfUnused o t) (retired ++ released) _).from told
  exact freed.same (publishRoster_catalogue _ first)

/-- The entry that objectOf answers. -/
theorem objectIs_of_objectOf {s : State} (hb : BlocksOk s) {k : ObjKind} {st : ObjState} {o : Nat}
    (h : objectOf s k st = some o) : ObjectIs s o k st := by
  unfold objectOf at h
  obtain ⟨⟨i, r⟩, hp, rfl⟩ := Option.map_eq_some_iff.1 h
  have hs := List.find?_some hp
  simp only [Bool.and_eq_true, beq_iff_eq] at hs
  exact ⟨r, (mem_iff_look _ _ i r 0 hb.1).1 (List.mem_of_find?_eq_some hp), hs.1, hs.2⟩

/-- Objects of different states, or of different kinds, are different objects. -/
theorem ObjectIs.ne {s : State} {o d : Nat} {k k' : ObjKind} {st st' : ObjState} (h : ObjectIs s o k st) (h' : ObjectIs s d k' st')
    (e : k ≠ k' ∨ st ≠ st') : o ≠ d := by
  rintro rfl
  obtain ⟨r, hr, rfl, rfl⟩ := h
  obtain ⟨q, hq, rfl, rfl⟩ := h'
  rw [hr] at hq
  cases hq
  rcases e with e | e <;> exact e rfl

theorem objectIs_modObject_other {s : State} {o d : Nat} {k : ObjKind} {st : ObjState} {f : ContentObject → ContentObject}
    (h : ObjectIs s d k st) (e : d ≠ o) : ObjectIs (modObject o f s) d k st := by
  obtain ⟨r, hr, hk⟩ := h
  exact ⟨r, by rw [look_modObject, if_neg e, hr], hk⟩

theorem objectIs_setObjectState {s : State} {o : Nat} {k : ObjKind} {st : ObjState} (h : ObjectIs s o k st) (st' : ObjState) :
    ObjectIs (setObjectState o st' s) o k st' := by
  obtain ⟨r, hr, hk, _⟩ := h
  exact ⟨{ r with state := st' }, by rw [setObjectState, look_modObject, if_pos rfl, hr]; rfl, hk, rfl⟩

/-- The staged object of a kind is not named, and publishing it keeps what the records name. -/
theorem recordsOk_setPublished {s : State} (h : RecordsOk s) {o : Nat} {k : ObjKind} (ho : ObjectIs s o k .staged) :
    RecordsOk (setObjectState o .published s) := by
  obtain ⟨r, hr, _, hst⟩ := ho
  refine recordsOk_setObjectState h o _ (notNamed_of_state h o (fun q hq => ?_)) (by decide)
  rw [hr] at hq
  cases hq
  rw [hst]
  decide

theorem recordsOk_publishFare {s : State} (h : RecordsOk s) (hb : BlocksOk s) {o : Nat} (ho : ObjectIs s o .fareImage .staged) :
    RecordsOk (publishFare o s) := by
  have h1 := recordsOk_setPublished h ho
  have new := objectIs_setObjectState ho .published
  have b1 : BlocksOk { setObjectState o .published s with fare := some ⟨generationOf s o, o⟩ } :=
    ((inside_setObjectState o .published s).trans (inside_fare _ _)).blocks hb
  have h2 : RecordsOk { setObjectState o .published s with fare := some ⟨generationOf s o, o⟩ } :=
    h1.rename rfl (Or.inr (fun f e => by cases e; exact new)) (Or.inl rfl) (Or.inl rfl)
  simp only [publishFare]
  split
  · exact (kept_handOff _ _ _ _).records b1 h2
  · rename_i f hf
    have old := h.fare f hf
    have apart := ho.ne old (Or.inr (by decide))
    have old2 : ObjectIs { setObjectState o .published s with fare := some ⟨generationOf s o, o⟩ } f.image .fareImage .published :=
      objectIs_modObject_other (f := fun r => { r with state := .published }) old apart.symm
    have unnamed : NotNamed { setObjectState o .published s with fare := some ⟨generationOf s o, o⟩ } f.image :=
      ⟨fun g e => by cases e; exact apart, fun b e => (h2.base b e).ne old2 (Or.inl (by decide)),
        fun b e hd => (h2.chain b e _ hd).ne old2 (Or.inl (by decide)) rfl, fun j e => (h2.result j e).ne old2 (Or.inl (by decide))⟩
    exact (kept_handOff _ _ _ _).records ((inside_setObjectState f.image .retiring _).blocks b1)
      (recordsOk_setObjectState h2 _ _ unnamed (by decide))

theorem recordsOk_publishDelta {s : State} (h : RecordsOk s) (hb : BlocksOk s) {o : Nat} {b : BlockRecord}
    (ho : ObjectIs s o .delta .staged) (hr : s.block = some b) : RecordsOk (publishDelta o b s) := by
  have h1 := recordsOk_setPublished h ho
  have chain : ∀ d ∈ b.chain ++ [o], ObjectIs (setObjectState o .published s) d .delta .published := by
    intro d hd
    rcases List.mem_append.1 hd with hd | hd
    · exact h1.chain b (by rw [setObjectState, modObject_block, hr]) d hd
    · rw [List.mem_singleton.1 hd]
      exact objectIs_setObjectState ho .published
  have base := h1.base b (by rw [setObjectState, modObject_block, hr])
  unfold publishDelta
  refine (kept_handOff _ _ _ _).records (((inside_setObjectState o .published s).trans (inside_block _ _)).blocks hb)
    (h1.rename rfl (Or.inl rfl) (Or.inr (fun c e => ?_)) (Or.inl rfl))
  cases e
  exact ⟨base, chain⟩

theorem recordsOk_startChain {s : State} (h : RecordsOk s) (hb : BlocksOk s) {o : Nat} (ho : ObjectIs s o .base .staged) :
    RecordsOk (startChain o s) := by
  have h1 := recordsOk_setPublished h ho
  unfold startChain
  refine (kept_handOff _ _ _ _).records (((inside_setObjectState o .published s).trans (inside_block _ _)).blocks hb)
    (h1.rename rfl (Or.inl rfl) (Or.inr (fun c e => ?_)) (Or.inl rfl))
  cases e
  exact ⟨objectIs_setObjectState ho .published, fun d hd => by cases hd⟩

theorem NotNamed.of_eq {s t : State} {o : Nat} (h : NotNamed s o) (hf : t.fare = s.fare) (hb : t.block = s.block)
    (hm : t.merge = s.merge) : NotNamed t o :=
  ⟨fun f e => h.fare f (hf ▸ e), fun b e => h.base b (hb ▸ e), fun b e => h.chain b (hb ▸ e), fun j e => h.result j (hm ▸ e)⟩

/-- The retirement of a list of objects changes no record. -/
theorem retireAll_records (ds : List Nat) (s : State) : (ds.foldl (fun t d => setObjectState d .retiring t) s).fare = s.fare ∧
    (ds.foldl (fun t d => setObjectState d .retiring t) s).block = s.block ∧
    (ds.foldl (fun t d => setObjectState d .retiring t) s).merge = s.merge := by
  have e := (RosterWork.foldl (fun t d => setObjectState d .retiring t) (fun t d => rosterWork_modObject d _ t) ds s).rest
  exact ⟨by rw [e], by rw [e], by rw [e]⟩

theorem recordsOk_retireAll (ds : List Nat) {s : State} (h : RecordsOk s) (hn : ∀ d ∈ ds, NotNamed s d) :
    RecordsOk (ds.foldl (fun t d => setObjectState d .retiring t) s) := by
  induction ds generalizing s with
  | nil => exact h
  | cons a ds ih =>
    refine ih (recordsOk_setObjectState h a .retiring (hn a (by simp)) (by decide)) (fun d hd => ?_)
    exact (hn d (by simp [hd])).of_eq (modObject_fare ..) (modObject_block ..) (modObject_merge ..)

theorem retireAll_withBlock (ds : List Nat) (b : Option BlockRecord) (s : State) :
    ds.foldl (fun t d => setObjectState d .retiring t) { s with block := b } =
      { ds.foldl (fun t d => setObjectState d .retiring t) s with block := b } := by
  induction ds generalizing s with
  | nil => rfl
  | cons a ds ih =>
    have e : setObjectState a .retiring { s with block := b } = { setObjectState a .retiring s with block := b } := by
      unfold setObjectState modObject
      dsimp only
      split <;> rfl
    rw [List.foldl_cons, List.foldl_cons, e, ih]

/-- The BLOCK record that a rebase writes (R16, steps 1 to 3). -/
def rebasedRecord (o : Nat) (b : BlockRecord) (s : State) : BlockRecord :=
  ⟨generationOf s o, max b.head (generationOf s o), o, keptDeltas s (generationOf s o) b.chain⟩

/-- The objects that a rebase takes out of the chain (R16, step 2). -/
def rebasedOut (o : Nat) (b : BlockRecord) (s : State) : List Nat := b.baseObject :: coveredDeltas s (generationOf s o) b.chain

/-- The state of a rebase once the records stand, before anything is freed. -/
def rebasedRecords (o : Nat) (b : BlockRecord) (s : State) : State :=
  (rebasedOut o b s).foldl (fun t d => setObjectState d .retiring t)
    { setObjectState o .published s with block := some (rebasedRecord o b s) }

/-- A rebase: the records, the stale delta, the merge it reaches, and the hand-off (R16). -/
theorem rebase_eq (o : Nat) (b : BlockRecord) (s : State) : rebase o b s =
    handOff none (rebasedOut o b s)
      (abortReached (generationOf s o) (freeStale (staleDelta s (generationOf s o)) (rebasedRecords o b s))).2
      (abortReached (generationOf s o) (freeStale (staleDelta s (generationOf s o)) (rebasedRecords o b s))).1 := by
  unfold rebasedRecords
  rw [retireAll_withBlock]
  rfl

theorem mem_keptDeltas {s : State} {g d : Nat} {chain : List Nat} : d ∈ keptDeltas s g chain ↔ d ∈ chain ∧ g < generationOf s d := by
  simp [keptDeltas]

theorem mem_coveredDeltas {s : State} {g d : Nat} {chain : List Nat} :
    d ∈ coveredDeltas s g chain ↔ d ∈ chain ∧ generationOf s d ≤ g := by
  simp [coveredDeltas]

/-- The record of a rebase does not name an object that no other record names, that is not the new base and is in the chain no more. -/
theorem notNamed_rebasedRecord {s : State} {o : Nat} {b : BlockRecord} (d : Nat) (hd : NotNamed { s with block := none } d) (hod : o ≠ d)
    (hk : d ∈ b.chain → generationOf s d ≤ generationOf s o) :
    NotNamed { setObjectState o .published s with block := some (rebasedRecord o b s) } d where
  fare f e := hd.fare f (by simpa [setObjectState] using e)
  base c e := by
    cases e
    exact hod
  chain c e hc := by
    cases e
    obtain ⟨h1, h2⟩ := mem_keptDeltas.1 hc
    exact absurd (hk h1) (not_le.2 h2)
  result j e := hd.result j (by simpa [setObjectState] using e)

section
variable {s : State} {o : Nat} {b : BlockRecord} (h : RecordsOk s) (ho : ObjectIs s o .base .staged) (hb : s.block = some b)
include h ho hb

/-- The record of a rebase names the new base and the deltas above it. -/
theorem recordsOk_rebasedRecord : RecordsOk { setObjectState o .published s with block := some (rebasedRecord o b s) } := by
  refine (recordsOk_setPublished h ho).rename rfl (Or.inl rfl) (Or.inr (fun c e => ?_)) (Or.inl rfl)
  cases e
  refine ⟨objectIs_setObjectState ho .published, fun d hd => ?_⟩
  have old := h.chain b hb d (mem_keptDeltas.1 hd).1
  exact objectIs_modObject_other (f := fun r => { r with state := .published }) old (old.ne ho (Or.inl (by decide)))

/-- The record of a rebase names none of the objects that it takes out of the chain. -/
theorem notNamed_rebasedOut (d : Nat) (hd : d ∈ rebasedOut o b s) :
    NotNamed { setObjectState o .published s with block := some (rebasedRecord o b s) } d := by
  rcases List.mem_cons.1 hd with rfl | hd
  · have old := h.base b hb
    refine notNamed_rebasedRecord _ ⟨fun f e => (h.fare f e).ne old (Or.inl (by decide)), fun c e => (by cases e),
      fun c e => (by cases e), fun j e => (h.result j e).ne old (Or.inr (by decide))⟩ (ho.ne old (Or.inr (by decide))) ?_
    exact fun hc => absurd rfl ((h.chain b hb _ hc).ne old (Or.inl (by decide)))
  · obtain ⟨hd, hg⟩ := mem_coveredDeltas.1 hd
    have old := h.chain b hb d hd
    exact notNamed_rebasedRecord _ ⟨fun f e => (h.fare f e).ne old (Or.inl (by decide)), fun c e => (by cases e),
      fun c e => (by cases e), fun j e => (h.result j e).ne old (Or.inl (by decide))⟩ (ho.ne old (Or.inl (by decide)))
      (fun _ => hg)

/-- The record of a rebase does not name a staged delta. -/
theorem notNamed_stagedDelta (d : Nat) (hd : ObjectIs s d .delta .staged) :
    NotNamed { setObjectState o .published s with block := some (rebasedRecord o b s) } d :=
  notNamed_rebasedRecord _ ⟨fun f e => (h.fare f e).ne hd (Or.inl (by decide)), fun c e => (by cases e),
    fun c e => (by cases e), fun j e => (h.result j e).ne hd (Or.inl (by decide))⟩ (ho.ne hd (Or.inl (by decide)))
    (fun hc => absurd rfl ((h.chain b hb _ hc).ne hd (Or.inr (by decide))))

theorem recordsOk_rebasedRecords : RecordsOk (rebasedRecords o b s) :=
  recordsOk_retireAll _ (recordsOk_rebasedRecord h ho hb) (notNamed_rebasedOut h ho hb)

end

theorem blocksOk_rebasedRecords {s : State} (o : Nat) (b : BlockRecord) (h : BlocksOk s) : BlocksOk (rebasedRecords o b s) := by
  have h1 : BlocksOk { setObjectState o .published s with block := some (rebasedRecord o b s) } :=
    ((inside_setObjectState o .published s).trans (inside_block _ _)).blocks h
  exact (Inside.foldl _ (fun t d => inside_setObjectState d .retiring t) (rebasedOut o b s) _).blocks h1

/-- The id of a stale delta is that of the staged one. -/
theorem objectOf_of_staleDelta {s : State} {g : Nat} {p : Nat × Nat} (h : staleDelta s g = some p) :
    objectOf s .delta .staged = some p.1 := by
  unfold staleDelta at h
  split at h
  · cases h
  · rename_i d hd
    split at h <;> cases h
    exact hd

theorem recordsOk_rebase {s : State} (h : RecordsOk s) (hs : BlocksOk s) {o : Nat} {b : BlockRecord} (ho : ObjectIs s o .base .staged)
    (hb : s.block = some b) : RecordsOk (rebase o b s) := by
  rw [rebase_eq]
  have b1 := blocksOk_rebasedRecords o b hs
  have r1 := recordsOk_rebasedRecords h ho hb
  obtain ⟨ef, eb, em⟩ := retireAll_records (rebasedOut o b s) { setObjectState o .published s with block := some (rebasedRecord o b s) }
  have b2 := (inside_freeStale (staleDelta s (generationOf s o)) _).blocks b1
  have r2 : RecordsOk (freeStale (staleDelta s (generationOf s o)) (rebasedRecords o b s)) := by
    unfold freeStale
    split
    · exact r1
    · rename_i p hp
      have staged := objectIs_of_objectOf hs (objectOf_of_staleDelta hp)
      exact recordsOk_freeObject r1 b1 p.1 ((notNamed_stagedDelta h ho hb p.1 staged).of_eq ef eb em)
  generalize freeStale (staleDelta s (generationOf s o)) (rebasedRecords o b s) = w at b2 r2
  refine (kept_handOff _ _ _ _).records ((inside_abortReached (generationOf s o) w).blocks b2) ?_
  unfold abortReached
  split
  · exact r2
  · rename_i j hj
    split
    · exact recordsOk_failMerge r2 b2 hj _ _
    · exact r2

/-! ### Every edit -/

theorem recordsOk_takeRefs (ids : List Nat) {s : State} (hb : BlocksOk s) (h : RecordsOk s) :
    RecordsOk (ids.foldl (fun t o => takeRef o t) s) :=
  (CatalogueKept.foldl _ (fun t o => kept_takeRef o t) ids s).records hb h

/-- An unused entry is not named. -/
theorem notNamed_unused {s : State} (h : RecordsOk s) (hb : BlocksOk s) {id : Nat} (hu : unusedObject s = some id) : NotNamed s id :=
  notNamed_of_state h id (fun r hr => by rw [(lookUnused_of s id hb.1 hu).1] at hr; cases hr)

/-- A new object that is not LOADING, or has no counts yet, keeps what the records name. -/
theorem recordsOk_createObject {s : State} (h : RecordsOk s) (hb : BlocksOk s) {id n : Nat} {mk : List Nat → ContentObject}
    (hu : unusedObject s = some id) (hc : ∀ l, (mk l).state = .loading → (mk l).entryCount = none ∧ (mk l).addCount = none) :
    RecordsOk (createObject id n mk s) :=
  (recordsOk_put h id (mk (s.pool.take n)) (notNamed_unused h hb hu) (hc _)).of_eq rfl rfl rfl rfl

theorem recordsOk_edit {s u : State} (e : CatalogueEdit s u) (hb : BlocksOk s) (h : RecordsOk s) : RecordsOk u := by
  cases e with
  | stay => exact h
  | opened id n mk hu _ hc => exact recordsOk_createObject h hb hu (fun l _ => hc l)
  | loaded o r offset n bs c hr =>
    exact (recordsOk_put_alike h o r { r with received := n } hr rfl rfl (fun _ => ⟨rfl, rfl⟩)).of_eq rfl rfl rfl rfl
  | freed o r hr hs =>
    refine recordsOk_freeObject h hb o (notNamed_of_state h o (fun q hq => ?_))
    rw [hr] at hq
    cases hq
    rcases hs with hs | hs <;> rw [hs] <;> decide
  | closed o r q hr hs hq =>
    refine recordsOk_put h o q (notNamed_of_state h o (fun x hx => ?_)) (fun e => by rw [hq] at e; cases e)
    rw [hr] at hx
    cases hx
    rw [hs]
    decide
  | fare o ho => exact recordsOk_publishFare h hb (objectIs_of_objectOf hb ho)
  | delta o b ho hr => exact recordsOk_publishDelta h hb (objectIs_of_objectOf hb ho) hr
  | first o ho => exact recordsOk_startChain h hb (objectIs_of_objectOf hb ho)
  | rebased o b ho hr => exact recordsOk_rebase h hb (objectIs_of_objectOf hb ho) hr
  | started j n mk hu hm hk =>
    have b1 := blocksOk_createObject s j.result n mk hb hu hm
    have r1 := recordsOk_createObject (n := n) h hb hu (fun l e => by rw [(hk l).2] at e; cases e)
    have new : ObjectIs (createObject j.result n mk s) j.result .base .building := ⟨_, look_put_same .., hk _⟩
    have k := CatalogueKept.foldl _ (fun t o => kept_takeRef o t) j.sources (createObject j.result n mk s)
    exact (k.records b1 r1).rename rfl (Or.inl rfl) (Or.inl rfl) (Or.inr (fun i e => by
      cases e
      exact k.objectIs b1 new (by decide)))
  | progressed j r offset n voids bs c hj hr =>
    have r1 := recordsOk_put_alike h j.result r { r with received := r.received + 9 * n } hr rfl rfl (fun _ => ⟨rfl, rfl⟩)
    exact r1.rename rfl (Or.inl rfl) (Or.inl rfl) (Or.inr (fun i e => by
      cases e
      exact r1.result j hj))
  | completed j r voids offset bs c hj hr =>
    obtain ⟨q, hq, _, building⟩ := h.result j hj
    rw [hr] at hq
    cases hq
    have r1 := recordsOk_put_alike h j.result r (finishResult j j.entriesWritten c r) hr rfl rfl
      (fun e => by rw [show (finishResult j j.entriesWritten c r).state = r.state from rfl, building] at e; cases e)
    have b1 := blocksOk_mergeFinished s j r c hb hr
    have r2 : RecordsOk (mergeFinished j r c s) := r1.of_eq rfl rfl rfl rfl
    exact (kept_retireSources _ _).records ((inside_settleMerge j _ voids _).blocks b1) (recordsOk_settleMerge r2 b1 hj _ voids)
  | aborted j reason n hj =>
    exact (kept_retireSources _ _).records ((inside_failMerge j reason n s).blocks hb) (recordsOk_failMerge h hb hj reason n)

/-! ## The resets, and every step -/

/-- Right after a reset every block is in the pool and nothing is named (R22, R29). -/
theorem blocksAndRecordsOk_start (cause : StartCause) (p : Straps) (pin : Bool) (q : List Instr) :
    BlocksOk (State.start cause p pin q) ∧ RecordsOk (State.start cause p pin q) := by
  refine ⟨⟨rfl, ?_⟩, ⟨fun f e => (by cases e), fun b e => (by cases e), fun b e => (by cases e), fun j e => (by cases e),
    fun o r e => (by cases e)⟩⟩
  simp only [allBlocks, State.start, List.flatMap_nil, List.append_nil]
  exact List.Perm.refl _

/-- A command keeps the account of blocks and what the records name. -/
theorem blocksAndRecordsOk_exec (s t : State) (c : Instr) (hb : BlocksOk s) (hr : RecordsOk s) (h : exec c s = .next t) :
    BlocksOk t ∧ RecordsOk t := by
  rcases exec_cases s t c h with k | ⟨u, e, k⟩ | ⟨cause, p, pin, rfl⟩
  · exact ⟨k.blocks hb, k.records hb hr⟩
  · have k := kept_same k
    have bu := blocksOk_edit e hb
    exact ⟨k.blocks bu, k.records bu (recordsOk_edit e hb hr)⟩
  · exact blocksAndRecordsOk_start ..

/-- Settles O58: exec_cases tells what a command does to the catalogue; work outside it counts references and frees RETIRING objects, which no
record names, and each edit moves blocks between the pool and one object and names what it has just made PUBLISHED or BUILDING. -/
theorem stepKeepsBlocksAndRecords : Obligations.StepKeepsBlocksAndRecords := by
  intro s t hb hr h
  unfold step at h
  split at h
  · cases h
    exact ⟨blocksOk_of_eq rfl rfl hb, hr.of_eq rfl rfl rfl rfl⟩
  · rename_i c rest _
    exact blocksAndRecordsOk_exec { s with pending := rest } t c (blocksOk_of_eq rfl rfl hb) (hr.of_eq rfl rfl rfl rfl) h

end Sys2Proof.Machine

/-! PROOFS. The resets, LIST_OBJECTS, and the requests that load and discard objects. -/

namespace Sys2Proof.Machine

/-! ## The state after a reset (R153) -/

@[simp] theorem start_slot (cause : StartCause) (p : Straps) (pin : Bool) (q : List Instr) (k : SlotIx) :
    (State.start cause p pin q).slot k = ⟨none, .none, false⟩ := by
  simp [State.slot, State.start, Vector.get]

@[simp] theorem start_lane (cause : StartCause) (p : Straps) (pin : Bool) (q : List Instr) (i : LaneIx) :
    (State.start cause p pin q).lane i = Lane.off false := by
  simp [State.lane, State.start, Vector.get]

theorem start_pool (cause : StartCause) (p : Straps) (pin : Bool) (q : List Instr) :
    (State.start cause p pin q).pool = List.range 4096 := by
  have blocks : Config.blocks = 4096 := rfl
  rw [State.start, blocks]

/-- Settles O2: each of the three commands answers State.start with its cause, whose fields are those that the statement lists. -/
theorem resetsStartEveryBlock : Obligations.ResetsStartEveryBlock := by
  intro s straps c cause hc
  have started : ∃ pin, exec c s = .next (State.start cause straps pin s.pending) ∧
      (pin = true ↔ cause = .request ∧ s.resetPin = true) := by
    rcases hc with ⟨rfl, rfl⟩ | ⟨rfl, rfl, hp⟩ | ⟨rfl, rfl, hp⟩
    · exact ⟨false, rfl, by simp⟩
    · exact ⟨false, by simp [exec, execResetPinRelease, hp], by simp⟩
    · exact ⟨s.resetPin, by simp [exec, execResetPartTakesEffect, hp], by simp⟩
  obtain ⟨pin, he, hpin⟩ := started
  refine ⟨_, he, ⟨rfl, start_pool .., rfl, rfl, rfl, rfl⟩, ⟨rfl, rfl, rfl, rfl⟩, ⟨rfl, rfl⟩,
    ⟨rfl, rfl, rfl, by simp [State.start]⟩, fun k => start_slot .., fun i => ?_,
    rfl, ⟨rfl, rfl, rfl, fun b => ?_, rfl, rfl, rfl, rfl, rfl⟩, hpin, rfl⟩
  · rw [start_lane]
    exact ⟨rfl, rfl, rfl⟩
  · simp [State.start, HostLink.start, Vector.get]

/-- The default parameters are within their ranges (R160). -/
theorem defaults_ok : LaneParams.defaults.ok := by constructor <;> decide

/-- A lane that is OFF is within its ranges. -/
theorem off_ok (line : Bool) : (Lane.off line).Ok := by
  constructor
  case params => exact defaults_ok
  all_goals simp [Lane.off, Config.answerPlaces, Config.ackPlaces, Config.beaconPlaces]

/-- Settles O56: the invariants of the catalogue by what holds after every reset, the others by the default values. -/
theorem resetIsSafe : Obligations.ResetIsSafe := by
  obtain ⟨blocks, records⟩ := blocksAndRecordsOk_start .power ⟨false, false⟩ false []
  have lanes : LanesOk State.reset := fun i => by
    rw [State.reset, start_lane]
    exact off_ok false
  have policy : PolicyOk State.reset := by constructor <;> decide
  exact ⟨wf_nil, show 1 ≤ Config.reportPlaces by decide, blocks, records, lanes, ⟨rfl, rfl⟩, policy⟩

/-! ## Replies -/

theorem answer_eq_replied (c : Nat) (g : Byte) (st : Status) (fs : List Byte) (s : State) :
    answer c g st fs s = replied (c + 0x80) g st fs s := rfl

theorem refuse_eq_replied (c : Nat) (g : Byte) (st : Status) (s : State) : refuse c g st s = replied (c + 0x80) g st [] s := rfl

/-- Settles O23: the reply's fields are those of R158, in its order. -/
theorem listObjectsReadsTheCatalogue : Obligations.ListObjectsReadsTheCatalogue := by
  intro s tag hq
  refine ⟨_, rfl, ?_⟩
  have e : exec .listObjects s = .next (answer 0x09 tag .ok (listFields s) s) := by
    simp only [exec, execListObjects, show s.host.processor = .busy tag .listObjects from hq]
  rw [e, answer_eq_replied, listFields]
  simp only [List.append_assoc]
  rfl

/-! ## LOAD_OPEN (R5 to R7) -/

theorem pairedKind_eq_some (stream kind : Nat) (k : ObjKind) :
    pairedKind stream kind = some k ↔ stream = k.stream.code ∧ kind = k.code := by
  have code : kindOfCode kind = some k ↔ kind = k.code := by
    unfold kindOfCode
    split <;> cases k <;> simp_all [ObjKind.code]
  unfold pairedKind
  split
  · rename_i h
    rw [h] at code
    simp only [reduceCtorEq, false_iff] at code ⊢
    exact fun e => code e.2
  · rename_i k' h
    rw [h] at code
    by_cases e : k' = k
    · subst e
      simp only [true_iff] at code
      simp [code]
    · have : kind ≠ k.code := fun c => e (Option.some.inj (code.2 c))
      simp [e, this]

theorem openFieldsOk_iff (stream kind size effective : Nat) (k : ObjKind) : OpenFieldsOk stream kind size effective k ↔
    pairedKind stream kind = some k ∧ (k = .fareImage ∨ effective = 0) ∧ 0 < size ∧ size ≤ sizeLimit k := by
  rw [pairedKind_eq_some, and_assoc]
  cases k <;> exact Iff.rfl

theorem loadKind_eq_some (stream kind size effective : Nat) (k : ObjKind) :
    loadKind stream kind size effective = some k ↔ OpenFieldsOk stream kind size effective k := by
  rw [openFieldsOk_iff]
  unfold loadKind
  cases pairedKind stream kind with
  | none => simp
  | some k' =>
    simp only [Option.ite_none_right_eq_some, Option.some.injEq]
    constructor
    · rintro ⟨h, rfl⟩
      exact ⟨rfl, h⟩
    · rintro ⟨rfl, h⟩
      exact ⟨h, rfl⟩

theorem aboveOpt_eq_false (g : Nat) (o : Option Nat) : aboveOpt g o = false ↔ ∃ p, o = some p ∧ g ≤ p := by
  cases o <;> simp [aboveOpt]

theorem generationOk_eq_false (s : State) (k : ObjKind) (g : Nat) : generationOk s k g = false ↔ GenerationBad s k g := by
  unfold generationOk GenerationBad
  rw [Bool.and_eq_false_iff]
  refine or_congr (by simp) ?_
  cases k with
  | fareImage =>
    simp only [Bool.and_eq_false_iff, aboveOpt_eq_false, publishedFare, stagedGeneration]
    simp
  | base =>
    simp only [aboveOpt_eq_false, publishedBase]
    simp
  | delta =>
    simp only [publishedHead]
    cases s.block <;> simp

theorem chainFull_iff (s : State) (k : ObjKind) : chainFull s k = true ↔ ChainAtLimit s k := by
  unfold chainFull ChainAtLimit
  cases k with
  | fareImage => simp
  | base => simp
  | delta =>
    cases s.block with
    | none => simp
    | some b =>
      rw [decide_eq_true_iff]
      simp [Config.chainLimit]

theorem placeTaken_iff (s : State) (k : ObjKind) :
    placeTaken s k = true ↔ objectOf s k .loading ≠ none ∨ objectOf s k .staged ≠ none := by
  simp [placeTaken, Option.isSome_iff_ne_none]

theorem poolHas_iff (s : State) (size : Nat) :
    poolHas s (ceilDiv size Config.blockSize) = true ↔ (size + 1023) / 1024 ≤ s.pool.length := by
  unfold poolHas
  rw [decide_eq_true_iff]
  exact Iff.rfl

/-- Settles O14: the tests of loadOpen in their order, each by what it means. -/
theorem loadOpenOutcome : Obligations.LoadOpenOutcome := by
  intro s tag stream kind g size crc effective hq
  have e : exec .loadOpen s = .next (loadOpen tag stream kind g size crc effective s) := by
    simp only [exec, execLoadOpen, show s.host.processor = .busy tag (.loadOpen stream kind g size crc effective) from hq]
  rw [e]
  unfold loadOpen
  refine ⟨fun hn => ?_, fun k hk => ?_⟩
  · have : loadKind stream kind size effective = none :=
      Option.eq_none_iff_forall_ne_some.2 (fun k h => hn k ((loadKind_eq_some ..).1 h))
    rw [this]
    rfl
  · rw [(loadKind_eq_some ..).2 hk]
    dsimp only
    refine ⟨fun hg => ?_, fun hg hc => ?_, fun hg hc hp => ?_, fun hg hc hl hs => ?_⟩
    · rw [if_pos ((generationOk_eq_false ..).2 hg)]
      rfl
    · rw [if_neg (mt (generationOk_eq_false ..).1 hg), if_pos ((chainFull_iff ..).2 hc)]
      rfl
    · rw [if_neg (mt (generationOk_eq_false ..).1 hg), if_neg (mt (chainFull_iff ..).1 hc), if_pos ((placeTaken_iff ..).2 hp)]
      rfl
    · rw [if_neg (mt (generationOk_eq_false ..).1 hg), if_neg (mt (chainFull_iff ..).1 hc),
        if_neg (mt (placeTaken_iff ..).1 (by simp [hl, hs]))]
      refine ⟨fun hu => ?_, fun id hu hp => ?_⟩
      · cases hid : unusedObject s with
        | none => rfl
        | some id =>
          have short : s.pool.length < (size + 1023) / 1024 := hu.resolve_left (by simp [hid])
          dsimp only
          rw [if_neg (mt (poolHas_iff ..).1 (not_le.2 short))]
          rfl
      · rw [hu]
        dsimp only
        rw [if_pos ((poolHas_iff ..).2 hp)]
        rfl

end Sys2Proof.Machine

/-! PROOFS. LOAD_DATA, LOAD_CLOSE and DISCARD. -/

namespace Sys2Proof.Machine

/-! ## LOAD_DATA (R8, R1) -/

/-- A byte of an object lies in the block that its offset falls in, when that block is in content memory (R1). -/
theorem byteAddress_eq_some (r : ContentObject) (n a : Nat) : byteAddress r n = some a ↔
    ∃ b, r.blocks[n / 1024]? = some b ∧ b < 4096 ∧ a = b * 1024 + n % 1024 := by
  unfold byteAddress
  simp only [Config.blockSize]
  cases r.blocks[n / 1024]? with
  | none => simp
  | some b =>
    dsimp only
    rw [Option.ite_none_right_eq_some]
    constructor
    · rintro ⟨h, e⟩
      exact ⟨b, rfl, h, (Option.some.inj e).symm⟩
    · rintro ⟨_, e, h, rfl⟩
      cases e
      exact ⟨h, rfl⟩

theorem objectByte_of_address {m : Memory} {r : ContentObject} {n a : Nat} (h : byteAddress r n = some a) :
    objectByte m r n = readByte m a := by
  unfold objectByte
  rw [h]

/-- Every byte of the declared size has an address once the blocks are there for it. -/
theorem byteAddress_of_fit {r : ContentObject} (h : BlocksFit r) {n : Nat} (hn : n < r.declaredSize) :
    ∃ a, byteAddress r n = some a := by
  obtain ⟨size, range, _⟩ := h
  have hi : n / 1024 < r.blocks.length := by omega
  exact ⟨_, (byteAddress_eq_some ..).2 ⟨r.blocks[n / 1024], List.getElem?_eq_getElem hi, range _ (List.getElem_mem hi), rfl⟩⟩

/-- Two bytes of an object at one address are the same byte, since no block is listed twice. -/
theorem byteAddress_inj {r : ContentObject} (h : r.blocks.Nodup) {m n a : Nat} (hm : byteAddress r m = some a)
    (hn : byteAddress r n = some a) : m = n := by
  obtain ⟨b, hb, _, e⟩ := (byteAddress_eq_some ..).1 hm
  obtain ⟨c, hc, _, f⟩ := (byteAddress_eq_some ..).1 hn
  have same : b = c := by omega
  subst same
  obtain ⟨hi, _⟩ := List.getElem?_eq_some_iff.1 hb
  have block : m / 1024 = n / 1024 := (List.getElem?_inj hi h).1 (hb.trans hc.symm)
  omega

theorem writeObject_cons {r : ContentObject} {n a : Nat} (h : byteAddress r n = some a) (b : Byte) (bs : List Byte) (m : Memory) :
    writeObject r n (b :: bs) m = writeObject r (n + 1) bs (writeByte m a b) := by
  rw [writeObject, h]

/-- Bytes within the declared size are written and read back, since later bytes lie elsewhere. -/
theorem writeObject_of_fit {r : ContentObject} (h : BlocksFit r) (bs : List Byte) (n : Nat) (m : Memory)
    (hn : n + bs.length ≤ r.declaredSize) (hm : Memory.wf m = true) : ∃ c, writeObject r n bs m = some c ∧
      ∀ (j : Nat) (b : Byte), bs[j]? = some b → objectByte c r (n + j) = b := by
  induction bs generalizing n m with
  | nil => exact ⟨m, rfl, fun j b e => by simp at e⟩
  | cons x bs ih =>
    simp only [List.length_cons] at hn
    obtain ⟨a, ha⟩ := byteAddress_of_fit h (show n < r.declaredSize by omega)
    obtain ⟨c, hc, back⟩ := ih (n + 1) (writeByte m a x) (by omega) (wf_writeByte m a x (byteAddress_lt r n a ha) hm)
    refine ⟨c, (writeObject_cons ha x bs m).trans hc, fun j b e => ?_⟩
    cases j with
    | zero =>
      cases e
      have later : ∀ j < bs.length, byteAddress r (n + 1 + j) ≠ some a := fun j _ k => by
        have := byteAddress_inj h.2.2 k ha
        omega
      rw [Nat.add_zero, objectByte_of_address ha, readByte_writeObject_other r bs a _ _ c hc later, readByte_writeByte_same m a _ hm]
    | succ j =>
      rw [show n + (j + 1) = n + 1 + j by omega]
      exact back j b e

/-- Settles O15: the tests of loadData in their order; what is written is read back by writeObject_of_fit. -/
theorem loadDataOutcome : Obligations.LoadDataOutcome := by
  refine ⟨byteAddress_eq_some, fun m r n a => objectByte_of_address, fun _ _ _ _ => rfl, fun s tag o offset data hq => ?_⟩
  have e : exec .loadData s = loadData tag o offset data s := by
    simp only [exec, execLoadData, show s.host.processor = .busy tag (.loadData o offset data) from hq]
  rw [e]
  unfold loadData
  refine ⟨fun hn => by rw [hn]; rfl, fun r hr => ?_⟩
  rw [hr]
  dsimp only
  refine ⟨fun hs => by rw [if_pos hs]; rfl, fun hs => ?_⟩
  rw [if_neg (not_not.2 hs)]
  refine ⟨fun hl => by rw [if_pos hl]; rfl, fun h1 h2 => ?_⟩
  rw [if_neg (by omega : ¬(data.length = 0 ∨ 1024 < data.length))]
  refine ⟨fun ho => by rw [if_pos ho]; rfl, fun ho hl => by rw [if_neg (not_not.2 ho), if_pos hl]; rfl, fun ho hl fit wf => ?_⟩
  rw [if_neg (not_not.2 ho), if_neg (not_lt.2 hl)]
  obtain ⟨c, hc, back⟩ := writeObject_of_fit fit data offset s.content hl wf
  rw [hc]
  exact ⟨c, rfl, back, fun a ha => readByte_writeObject_other r data a offset s.content c hc ha⟩

/-! ## LOAD_CLOSE (R9, R10, R27, R28) -/

theorem freeObject_of_look {s : State} {o : Nat} {r : ContentObject} (h : look s.objects o = some r) :
    freeObject o s = { s with objects := erase s.objects o, pool := s.pool ++ r.blocks } := by
  unfold freeObject
  rw [h]

/-- Only a base or a delta has a content check (R27). -/
theorem closeFault_eq (r : ContentObject) (bs : List Byte) :
    closeFault r bs = if r.kind = .fareImage then none else contentFault r.kind r.generation r.declaredSize bs := by
  unfold closeFault
  split
  · rename_i h
    rw [if_pos h]
  all_goals
    rename_i h
    rw [h, if_neg (by decide)]

/-- A base or a delta is overtaken when the published base has reached its generation (R10, step 2). -/
theorem overtaken_iff (s : State) (r : ContentObject) :
    overtaken s r = true ↔ r.kind ≠ .fareImage ∧ ∃ b, s.block = some b ∧ r.generation ≤ b.base := by
  have above : (!aboveOpt r.generation (publishedBase s)) = true ↔ ∃ b, s.block = some b ∧ r.generation ≤ b.base := by
    rw [Bool.not_eq_true', aboveOpt_eq_false, publishedBase]
    simp
  unfold overtaken
  split <;> rename_i h <;> simp [h, above]

/-- The staged object is the LOADING one, STAGED, with the counts of its kind (R10, R28). -/
theorem stagedObject_eq (r : ContentObject) (bs : List Byte) (hc : r.entryCount = none ∧ r.addCount = none) :
    ∃ n a, (r.kind = .fareImage → n = none ∧ a = none) ∧
      (r.kind = .base → n = some ((r.declaredSize - 16) / 9) ∧ a = none) ∧
      (r.kind = .delta → n = some ((r.declaredSize - 16) / 10) ∧
        a = some (addEntries (blockEntries .delta ((r.declaredSize - 16) / 10) bs))) ∧
      stagedObject r bs = { r with state := .staged, entryCount := n, addCount := a } := by
  obtain ⟨kind, g, size, crc, received, blocks, n, a, st, refs, eff⟩ := r
  obtain ⟨rfl, rfl⟩ := hc
  cases kind
  · exact ⟨none, none, fun _ => ⟨rfl, rfl⟩, nofun, nofun, rfl⟩
  · exact ⟨_, none, nofun, fun _ => ⟨rfl, rfl⟩, nofun, rfl⟩
  · exact ⟨_, _, nofun, nofun, fun _ => ⟨rfl, rfl⟩, rfl⟩

/-- Settles O16: the tests of closeLoading in their order, each by what it means. -/
theorem loadCloseOutcome : Obligations.LoadCloseOutcome := by
  intro s tag o hq
  have e : exec .loadClose s = execLoadClose s := rfl
  rw [e]
  unfold execLoadClose
  rw [show s.host.processor = .busy tag (.loadClose o) from hq]
  dsimp only
  refine ⟨fun hn => by rw [hn]; rfl, fun r bytes freed hr hb hf => ?_⟩
  have free : ∀ st fs, closeFreed tag o st fs s = replied 0x85 tag st fs freed := fun st fs => by
    rw [closeFreed, freeObject_of_look hr, ← hf]
    rfl
  rw [hr]
  dsimp only
  rw [← hb]
  unfold closeLoading
  refine ⟨fun hs => by rw [if_pos hs]; rfl, fun hs hl => by rw [if_neg (not_not.2 hs), if_pos hl, free], fun hs hl => ?_⟩
  rw [if_neg (not_not.2 hs), if_neg (not_not.2 hl)]
  refine ⟨fun hc => by rw [if_pos hc, free], fun hc => ?_⟩
  rw [if_neg (not_not.2 hc), closeFault_eq]
  refine ⟨fun f i hk hi => by rw [if_neg hk, hi]; dsimp only; rw [free], fun passed => ?_⟩
  have noFault : (if r.kind = .fareImage then none else contentFault r.kind r.generation r.declaredSize bytes) = none := by
    split
    · rfl
    · rename_i hk
      exact passed.resolve_left hk
  rw [noFault]
  dsimp only
  refine ⟨fun hk hg => by rw [if_pos ((overtaken_iff s r).2 ⟨hk, hg⟩), free], fun hg => ?_⟩
  have current : ¬overtaken s r = true := fun h => by
    obtain ⟨hk, b, hb, hg'⟩ := (overtaken_iff s r).1 h
    exact absurd (hg.resolve_left hk b hb) (not_lt.2 hg')
  rw [if_neg current]
  refine ⟨fun hp => by rw [if_pos (Option.isSome_iff_ne_none.2 hp)]; rfl, fun hp records => ?_⟩
  obtain ⟨n, a, fare, base, delta, staged⟩ := stagedObject_eq r bytes (records.loading o r hr hs)
  rw [hp, if_neg (by decide), staged]
  exact ⟨n, a, fare, base, delta, rfl⟩

/-! ## DISCARD (R12, R37) -/

theorem discardMerge_of_job {s : State} {j : MergeJob} (h : s.merge = some j) :
    discardMerge s = retireSources j.sources (failMerge j .discarded j.entriesWritten s) := by
  unfold discardMerge
  rw [h]

/-- Settles O18: by the state of the object; the job's result is the object when it is BUILDING. -/
theorem discardOutcome : Obligations.DiscardOutcome := by
  intro s tag o hq
  have e : exec .discard s = execDiscard s := rfl
  rw [e]
  unfold execDiscard objectState
  rw [show s.host.processor = .busy tag (.discard o) from hq]
  dsimp only
  refine ⟨fun hn => by rw [hn]; rfl, fun r hr => ?_⟩
  rw [hr, Option.map_some]
  refine ⟨fun hs => ?_, fun hs => ?_, fun j hs hj ho => ?_⟩
  · rcases hs with hs | hs <;> rw [hs] <;> dsimp only <;> rw [freeObject_of_look hr] <;> rfl
  · rcases hs with hs | hs <;> rw [hs] <;> rfl
  · subst ho
    rw [hs]
    dsimp only
    rw [discardMerge_of_job hj, failMerge, freeObject_of_look hr]
    rfl

end Sys2Proof.Machine

/-! PROOFS. The publishes of a fare image and of a delta, and what every publish that is carried out leaves as it is. -/

namespace Sys2Proof.Machine

/-! ## What the hand-off leaves as it is (R18) -/

/-- The transfer unit's part of the hand-off changes slots and lanes alone. -/
structure SlotWork (s t : State) : Prop where
  rest : t = { s with slots := t.slots, lanes := t.lanes }

theorem SlotWork.trans {s t u : State} (h : SlotWork s t) (k : SlotWork t u) : SlotWork s u := by
  have e := k.rest
  rw [h.rest] at e
  exact ⟨e⟩

theorem SlotWork.foldl {α : Type} (f : State → α → State) (hf : ∀ t a, SlotWork t (f t a)) (l : List α) (s : State) :
    SlotWork s (l.foldl f s) := by
  induction l generalizing s with
  | nil => exact ⟨rfl⟩
  | cons a l ih => exact (hf s a).trans (ih (f s a))

theorem slotWork_retireSlot (o : Nat) (s : State) (k : SlotIx) : SlotWork s (retireSlot o s k) := by
  constructor
  unfold retireSlot
  split
  · rfl
  · split
    · unfold modBinding
      split <;> rfl
    · rfl

theorem slotWork_retireSlots (ds : List Nat) (s : State) : SlotWork s (ds.foldl (fun t o => retireSlots o t) s) :=
  SlotWork.foldl _ (fun t o => SlotWork.foldl _ (slotWork_retireSlot o) allSlots t) ds s

theorem rosterWork_publishRoster (first : Option Stream) (s : State) : RosterWork s (publishRoster first s) :=
  RosterWork.foldl (publishValidator first) (rosterWork_publishValidator first) _ s

theorem rosterWork_retireSources (ds : List Nat) (s : State) : RosterWork s (retireSources ds s) :=
  RosterWork.foldl _ (fun t o => rosterWork_retireIfUnused o t) ds s

/-- The hand-off in its three parts. -/
theorem handOff_eq (first : Option Stream) (retired released : List Nat) (s : State) : handOff first retired released s =
    { publishRoster first (retireSources (retired ++ released) (retired.foldl (fun t o => retireSlots o t) s)) with
      dispatchDue := true } := rfl

theorem handOff_vehicles (first : Option Stream) (retired released : List Nat) (s : State) :
    (handOff first retired released s).vehicles = s.vehicles := by
  rw [handOff_eq]
  dsimp only
  rw [(rosterWork_publishRoster first _).rest]
  dsimp only
  rw [(rosterWork_retireSources _ _).rest]
  dsimp only
  rw [(slotWork_retireSlots retired s).rest]

theorem handOff_nil_catalogue (first : Option Stream) (s : State) : (handOff first [] [] s).catalogue = s.catalogue :=
  publishRoster_catalogue s first

/-! ## The end of a publish (R13, R157) -/

/-- The fields of the reply to a publish carried out. -/
def publishFields (freed : Option (Nat × Nat)) (s : State) : List Byte :=
  leBytes 2 (orZero (publishedFare s)) ++ leBytes 2 (orZero (publishedBase s)) ++ leBytes 2 (orZero (publishedHead s)) ++
    leBytes 1 (orNone (freed.map Prod.fst)) ++ leBytes 2 (orZero (freed.map Prod.snd))

/-- What stays and what the reply is once the records `u` of a publish have been handed off. -/
structure PublishEnds (tag : Byte) (freed : Option (Nat × Nat)) (u t : State) : Prop where
  content : t.content = u.content
  fare : t.fare = u.fare
  block : t.block = u.block
  merge : t.merge = u.merge
  vehicles : t.vehicles = u.vehicles
  clock : t.clock = u.clock
  scanner : t.scanner = u.scanner
  policy : t.policy = u.policy
  now : t.now = u.now
  reply : t.host.replyPlace = some ⟨0x87, tag, .ok, publishFields freed u⟩
  idle : t.host.processor = .idle
  due : t.dispatchDue = true

/-- Every publish carried out ends in the same way: hand-off, reply, choice points. -/
theorem publishEnds_handOff (tag : Byte) (freed : Option (Nat × Nat)) (first : Option Stream) (retired released : List Nat)
    (u : State) : PublishEnds tag freed u (chooseAll (publishReply tag freed (handOff first retired released u))) := by
  have chosen := chosen_chooseAll (publishReply tag freed (handOff first retired released u))
  have kept := kept_handOff first retired released u
  have inside := inside_handOff first retired released u
  constructor
  case content => exact chosen.content_eq.trans kept.content
  case fare => exact chosen.fare_eq.trans kept.fare
  case block => exact chosen.block_eq.trans kept.block
  case merge => exact chosen.merge_eq.trans kept.merge
  case vehicles => exact chosen.vehicles_eq.trans (handOff_vehicles first retired released u)
  case clock => exact chosen.clock_eq.trans inside.clock
  case scanner => exact chosen.scanner_eq.trans inside.scanner
  case policy => exact chosen.policy_eq.trans inside.policy
  case now => exact chosen.now_eq.trans inside.now
  case reply =>
    rw [chosen.host_eq, publishFields, publishedFare, publishedBase, publishedHead, ← kept.fare, ← kept.block]
    rfl
  case idle => rw [chosen.host_eq]; rfl
  case due => exact chosen.dispatchDue_eq

/-- The end of a publish depends on the records and on what no publish changes. -/
theorem PublishEnds.of_rosterWork {tag : Byte} {freed : Option (Nat × Nat)} {u w t : State} (h : RosterWork u w)
    (e : PublishEnds tag freed w t) : PublishEnds tag freed u t := by
  rw [h.rest] at e
  exact ⟨e.content, e.fare, e.block, e.merge, e.vehicles, e.clock, e.scanner, e.policy, e.now, e.reply, e.idle, e.due⟩

/-- Slots told of retired objects are told of them in the reply's state too. -/
theorem slotsTold_publishReply {takes : SlotIx → Binding → Prop} {s u : State} (h : SlotsTold takes s u) (tag : Byte)
    (freed : Option (Nat × Nat)) : SlotsTold takes s (publishReply tag freed u) := h.of_same rfl rfl

/-! ## PUBLISH of the fare image (R14) -/

/-- A request whose fields do not belong together may come as any PUBLISH command (R13, log entry 26). -/
theorem publish_unpaired {s : State} {tag : Byte} {stream kind : Nat} (hq : Held s tag (.publish stream kind))
    (hn : ∀ k : ObjKind, ¬(stream = k.stream.code ∧ kind = k.code)) (c : Instr)
    (hc : c ∈ [Instr.publishFareImage, .publishDelta, .publishBase]) : exec c s = .next (replied 0x87 tag .badField [] s) := by
  have unpaired : pairedKind stream kind = none :=
    Option.eq_none_iff_forall_ne_some.2 (fun k h => hn k ((pairedKind_eq_some ..).1 h))
  have busy : s.host.processor = .busy tag (.publish stream kind) := hq
  simp only [List.mem_cons, List.not_mem_nil, or_false] at hc
  rcases hc with rfl | rfl | rfl
  · simp only [exec, execPublishFareImage, busy, unpaired]
    rfl
  · simp only [exec, execPublishDelta, busy, unpaired]
    rfl
  · simp only [exec, execPublishBase, busy, unpaired]
    rfl

theorem generationOf_of_look {s : State} {o : Nat} {r : ContentObject} (h : look s.objects o = some r) :
    generationOf s o = r.generation := by
  unfold generationOf
  rw [h]

/-- A publish of the fare image that finds one staged. -/
theorem exec_publishFareImage_staged {s : State} {tag : Byte} {o : Nat} (hq : Held s tag (.publish 1 1))
    (ho : objectOf s .fareImage .staged = some o) :
    exec .publishFareImage s = .next (chooseAll (publishReply tag none (publishFare o s))) := by
  have paired : pairedKind 1 1 = some .fareImage := rfl
  simp only [exec, execPublishFareImage, show s.host.processor = .busy tag (.publish 1 1) from hq, paired, ho]

/-- The state of a fare publish once the record stands. -/
def fareRecorded (o : Nat) (s : State) : State := { setObjectState o .published s with fare := some ⟨generationOf s o, o⟩ }

/-- The image before the new one, RETIRING. -/
def fareRetired (o : Nat) (s : State) : State :=
  match s.fare with
  | none => fareRecorded o s
  | some f => setObjectState f.image .retiring (fareRecorded o s)

/-- A fare publish is the hand-off of the image before it, if there is one (R14). -/
theorem publishFare_eq (o : Nat) (s : State) : publishFare o s =
    handOff (if s.fare = none then some .fare else none) (s.fare.toList.map FareRecord.image) [] (fareRetired o s) := by
  unfold publishFare fareRetired
  cases s.fare <;> rfl

theorem fareRetired_rest (o : Nat) (s : State) :
    fareRetired o s = { s with objects := (fareRetired o s).objects, fare := some ⟨generationOf s o, o⟩ } := by
  unfold fareRetired fareRecorded setObjectState modObject
  dsimp only
  repeat' split
  all_goals rfl

theorem rosterWork_fareRetired (o : Nat) (s : State) :
    RosterWork { s with fare := some ⟨generationOf s o, o⟩ } (fareRetired o s) := by
  constructor
  rw [fareRetired_rest]

/-- The objects of a fare publish before those without a reference are freed. -/
theorem look_fareRetired (o d : Nat) (s : State) : look (fareRetired o s).objects d =
    (look s.objects d).map (fun r => { r with state :=
      if d ∈ (s.fare.toList.map FareRecord.image) then .retiring else if d = o then .published else r.state }) := by
  have recorded : look (fareRecorded o s).objects d =
      if d = o then (look s.objects d).map (fun r => { r with state := .published }) else look s.objects d := look_modObject o d _ s
  unfold fareRetired
  cases s.fare with
  | none =>
    simp only [recorded]
    split <;> simp
  | some f =>
    simp only [setObjectState, look_modObject, recorded]
    have taken : d ∈ (some f).toList.map FareRecord.image ↔ d = f.image := by simp
    by_cases h1 : d = f.image
    · rw [if_pos h1]
      simp only [taken, if_pos h1]
      split
      · rw [Option.map_map]
        rfl
      · rfl
    · rw [if_neg h1]
      simp only [taken, if_neg h1]
      split
      · rfl
      · simp

theorem wf_fareRetired {s : State} (o : Nat) (hb : BlocksOk s) :
    tableWf Config.objectEntries 0 (fareRetired o s).objects = true := by
  unfold fareRetired
  split
  · exact wf_modObject _ _ _ hb.1
  · exact wf_modObject _ _ _ (wf_modObject _ _ _ hb.1)

/-- The objects after a fare publish: the old image is RETIRING, or freed when it has no reference. -/
theorem look_publishFare {s : State} (hb : BlocksOk s) (o d : Nat) : look (publishFare o s).objects d =
    (look s.objects d).bind (fun r =>
      if d ∈ (s.fare.toList.map FareRecord.image) then
        if r.refs = 0 then none else some { r with state := .retiring }
      else some { r with state := if d = o then .published else r.state }) := by
  rw [publishFare_eq, look_handOff _ _ _ _ _ (wf_fareRetired o hb), look_fareRetired]
  cases look s.objects d with
  | none => rfl
  | some r => by_cases h : d ∈ s.fare.toList.map FareRecord.image <;> simp [h]

/-- Settles O19: the hand-off of the old image, whose effects on the slots, the objects and the rest are lemmas of their own. -/
theorem publishFareImageOutcome : Obligations.PublishFareImageOutcome := by
  intro s tag
  refine ⟨fun stream kind hq hn => publish_unpaired hq hn, fun hq hn => ?_, fun o r hq hb records ho hr => ?_⟩
  · have paired : pairedKind 1 1 = some .fareImage := rfl
    simp only [exec, execPublishFareImage, show s.host.processor = .busy tag (.publish 1 1) from hq, paired, hn]
    rfl
  refine ⟨_, _, exec_publishFareImage_staged hq ho, rfl, chosen_chooseAll _, ?_⟩
  have told := slotsTold_publishReply (slotsTold_publishFare o s) tag none
  have staged := objectIs_of_objectOf hb ho
  have old : ∀ f, s.fare = some f → ObjectIs s f.image .fareImage .published ∧ f.image ≠ o := fun f hf =>
    ⟨records.fare f hf, (records.fare f hf).ne staged (Or.inr (by decide))⟩
  have objects : ∀ d, look (chooseAll (publishReply tag none (publishFare o s))).objects d = look (publishFare o s).objects d :=
    fun d => by rw [(chosen_chooseAll _).objects_eq]; rfl
  have images : ∀ d, d ∈ s.fare.toList.map FareRecord.image ↔ ∃ f, s.fare = some f ∧ f.image = d := fun d => by
    cases s.fare <;> simp [eq_comm]
  have ends := publishEnds_handOff tag none (if s.fare = none then some .fare else none) (s.fare.toList.map FareRecord.image) []
    (fareRetired o s)
  rw [← publishFare_eq] at ends
  have ends := ends.of_rosterWork (rosterWork_fareRetired o s)
  refine ⟨fun hf => by rwa [hf] at told, fun f hf => by rwa [hf] at told, ?_, ?_, ?_, ?_, ?_, ?_, ends.idle, ends.due, ?_⟩
  · rw [ends.fare, generationOf_of_look hr]
  · exact ends.block
  · obtain ⟨q, hq, hk, _⟩ := staged
    refine ⟨{ q with state := .published }, ?_, hk, rfl⟩
    rw [objects, look_publishFare hb, hq, Option.bind_some, if_neg, if_pos rfl]
    rw [images]
    rintro ⟨f, hf, e⟩
    exact (old f hf).2 e
  · intro f q hf hq
    have taken := look_publishFare hb o f.image
    rw [hq, Option.bind_some, if_pos ((images _).2 ⟨f, hf, rfl⟩)] at taken
    obtain ⟨x, hx, hk, _⟩ := (old f hf).1
    rw [hq] at hx
    cases hx
    refine ⟨fun h0 => ?_, fun h0 => ⟨{ q with state := .retiring }, ?_, hk, rfl⟩⟩
    · rw [objects, taken, if_pos h0]
    · rw [objects, taken, if_neg h0]
  · intro d hd hf
    have other : d ∉ s.fare.toList.map FareRecord.image := fun h => by
      obtain ⟨f, e, rfl⟩ := (images d).1 h
      exact hf f e rfl
    rw [objects, look_publishFare hb]
    simp only [if_neg hd, if_neg other]
    cases look s.objects d <;> rfl
  · rw [ends.reply, publishFields, publishedFare, publishedBase, publishedHead, generationOf_of_look hr]
    rfl
  · exact ⟨ends.content, ends.merge, ends.vehicles, ends.clock, ends.scanner, ends.policy, ends.now⟩

/-! ## PUBLISH of the delta (R15) -/

theorem setObjectState_of_look {s : State} {o : Nat} {r : ContentObject} (h : look s.objects o = some r) (st : ObjState) :
    setObjectState o st s = { s with objects := put s.objects o { r with state := st } } := by
  unfold setObjectState modObject
  rw [h]

/-- A publish that retires nothing leaves objects and pool to its records. -/
theorem published_nothingRetired (tag : Byte) (freed : Option (Nat × Nat)) (first : Option Stream) (u : State) :
    (chooseAll (publishReply tag freed (handOff first [] [] u))).objects = u.objects ∧
      (chooseAll (publishReply tag freed (handOff first [] [] u))).pool = u.pool := by
  obtain ⟨_, pool, objects, _⟩ := Catalogue.mk.inj (handOff_nil_catalogue first u)
  rw [(chosen_chooseAll _).objects_eq, (chosen_chooseAll _).pool_eq]
  exact ⟨objects, pool⟩

/-- The state of a delta publish once the record stands. -/
def deltaRecorded (o : Nat) (r : ContentObject) (b : BlockRecord) (s : State) : State :=
  { s with objects := put s.objects o { r with state := .published },
           block := some { b with head := r.generation, chain := b.chain ++ [o] } }

theorem publishDelta_eq {s : State} {o : Nat} {r : ContentObject} (hr : look s.objects o = some r) (b : BlockRecord) :
    publishDelta o b s = handOff none [] [] (deltaRecorded o r b s) := by
  rw [publishDelta, setObjectState_of_look hr, generationOf_of_look hr]
  rfl

/-- Settles O20: the tests in their order; a delta publish retires nothing. -/
theorem publishDeltaOutcome : Obligations.PublishDeltaOutcome := by
  intro s tag hq
  have paired : pairedKind 2 3 = some .delta := rfl
  have busy : s.host.processor = .busy tag (.publish 2 3) := hq
  refine ⟨fun hn => ?_, fun o r ho hr => ⟨fun hg => ?_, fun b hb hg => ?_⟩⟩
  · simp only [exec, execPublishDelta, busy, paired, hn]
    rfl
  · simp only [exec, execPublishDelta, busy, paired, ho]
    cases hb : s.block with
    | none => rfl
    | some b =>
      dsimp only
      rw [generationOf_of_look hr, if_neg (hg b hb)]
      rfl
  have next : exec .publishDelta s = .next (chooseAll (publishReply tag none (publishDelta o b s))) := by
    simp only [exec, execPublishDelta, busy, paired, ho, hb, generationOf_of_look hr, if_pos hg]
  refine ⟨_, _, next, rfl, chosen_chooseAll _, slotsTold_publishReply (slotsTold_publishDelta o b s) tag none, ?_⟩
  have ends := publishEnds_handOff tag none none [] [] (deltaRecorded o r b s)
  obtain ⟨objects, pool⟩ := published_nothingRetired tag none none (deltaRecorded o r b s)
  rw [publishDelta_eq hr]
  exact ⟨ends.block, ends.fare, objects, pool, ends.reply, ends.idle, ends.due, ends.content, ends.merge, ends.vehicles, ends.clock,
    ends.scanner, ends.policy, ends.now⟩

end Sys2Proof.Machine

/-! PROOFS. The publish of a base: the first one, and a rebase (R16, R17). -/

namespace Sys2Proof.Machine

/-! ## The state of a rebase before its hand-off (R16) -/

/-- The state of a rebase before its hand-off, with the sources that an aborted merge has released. -/
def rebaseSettled (o : Nat) (b : BlockRecord) (s : State) : State × List Nat :=
  abortReached (generationOf s o) (freeStale (staleDelta s (generationOf s o)) (rebasedRecords o b s))

/-- The references on an object once a merge that a base at generation `g` reaches has dropped its own (R16, step 5). -/
def refsAfterAbort (s : State) (g d n : Nat) : Nat :=
  match s.merge with
  | none => n
  | some j => if j.target ≤ g then n - j.sources.count d else n

/-- The objects that a rebase to generation `g` frees whatever their references: a stale staged delta and the result of a merge that it
aborts. -/
def Overtaken (s : State) (g d : Nat) : Prop :=
  (∃ p, staleDelta s g = some p ∧ p.1 = d) ∨ ∃ j, s.merge = some j ∧ j.target ≤ g ∧ j.result = d

/-- An object taken out of the chain is RETIRING, the new base PUBLISHED (R16, steps 1 and 2). -/
def rebasedState (o : Nat) (b : BlockRecord) (s : State) (d : Nat) (st : ObjState) : ObjState :=
  if d ∈ rebasedOut o b s then .retiring else if d = o then .published else st

theorem look_rebasedRecords (o : Nat) (b : BlockRecord) (s : State) (d : Nat) : look (rebasedRecords o b s).objects d =
    (look s.objects d).map (fun r => { r with state := rebasedState o b s d r.state }) := by
  unfold rebasedRecords rebasedState
  rw [look_retireAll]
  dsimp only
  rw [setObjectState, look_modObject]
  cases look s.objects d with
  | none => simp
  | some r =>
    by_cases h : d ∈ rebasedOut o b s
    · simp only [if_pos h]
      split <;> rfl
    · simp only [if_neg h]
      split <;> rfl

/-- Of the other fields the records of a rebase change the BLOCK record alone. -/
theorem rosterWork_rebasedRecords (o : Nat) (b : BlockRecord) (s : State) :
    RosterWork { s with block := some (rebasedRecord o b s) } (rebasedRecords o b s) := by
  have published : RosterWork { s with block := some (rebasedRecord o b s) }
      { setObjectState o .published s with block := some (rebasedRecord o b s) } := by
    constructor
    have e := (rosterWork_modObject o (fun r => { r with state := .published }) s).rest
    conv_lhs => rw [setObjectState, e]
    rfl
  exact published.trans (RosterWork.foldl _ (fun t d => rosterWork_modObject d _ t) _ _)

theorem rosterWork_freeStale (p : Option (Nat × Nat)) (s : State) : RosterWork s (freeStale p s) := by
  unfold freeStale
  split
  · exact RosterWork.refl s
  · exact rosterWork_freeObject _ s

theorem look_freeStale {s : State} (hs : tableWf Config.objectEntries 0 s.objects = true) (p : Option (Nat × Nat)) (d : Nat) :
    look (freeStale p s).objects d = if p.map Prod.fst = some d then none else look s.objects d := by
  unfold freeStale
  cases p with
  | none => simp
  | some p =>
    dsimp only
    rw [look_freeObject _ _ _ hs]
    simp [eq_comm]

/-- A failed merge leaves the engine IDLE and works on objects and reports else. -/
theorem rosterWork_failMerge_idle (j : MergeJob) (reason : MergeFailure) (n : Nat) (s : State) :
    RosterWork { s with merge := none } (failMerge j reason n s) := by
  unfold failMerge
  rw [releaseSources_eq, ← freeObject_withMerge]
  exact ((rosterWork_freeObject j.result _).trans (RosterWork.foldl _ (fun t d => rosterWork_modObject d _ t) j.sources _)).trans
    (rosterWork_submit _ _)

theorem look_failMerge {s : State} (hs : tableWf Config.objectEntries 0 s.objects = true) (j : MergeJob) (reason : MergeFailure)
    (n d : Nat) : look (failMerge j reason n s).objects d =
      if d = j.result then none else (look s.objects d).map (fun r => { r with refs := r.refs - j.sources.count d }) := by
  unfold failMerge
  rw [submit_objects, releaseSources]
  dsimp only
  rw [look_releaseAll, look_freeObject _ _ _ hs]
  split <;> rfl

/-- A merge that the new base does not reach, or none, goes on. -/
theorem abortReached_none {g : Nat} {s : State} (h : ∀ j, s.merge = some j → g < j.target) : abortReached g s = (s, []) := by
  unfold abortReached
  split
  · rfl
  · rename_i j hj
    exact if_neg (not_le.2 (h j hj))

/-- A merge that the new base reaches is aborted. -/
theorem abortReached_some {g : Nat} {s : State} {j : MergeJob} (hj : s.merge = some j) (h : j.target ≤ g) :
    abortReached g s = (failMerge j .superseded j.entriesWritten s, j.sources) := by
  unfold abortReached
  rw [hj]
  exact if_pos h

/-- The state of a rebase before a merge is aborted. -/
def rebaseStale (o : Nat) (b : BlockRecord) (s : State) : State := freeStale (staleDelta s (generationOf s o)) (rebasedRecords o b s)

theorem rosterWork_rebaseStale (o : Nat) (b : BlockRecord) (s : State) :
    RosterWork { s with block := some (rebasedRecord o b s) } (rebaseStale o b s) :=
  (rosterWork_rebasedRecords o b s).trans (rosterWork_freeStale _ _)

theorem rebaseStale_merge (o : Nat) (b : BlockRecord) (s : State) : (rebaseStale o b s).merge = s.merge := by
  rw [(rosterWork_rebaseStale o b s).rest]

section
variable {s : State} (hb : BlocksOk s) (o : Nat) (b : BlockRecord)
include hb

theorem blocksOk_rebaseStale : BlocksOk (rebaseStale o b s) := (inside_freeStale _ _).blocks (blocksOk_rebasedRecords o b hb)

theorem look_rebaseStale (d : Nat) : look (rebaseStale o b s).objects d =
    if (staleDelta s (generationOf s o)).map Prod.fst = some d then none
    else (look s.objects d).map (fun r => { r with state := rebasedState o b s d r.state }) := by
  rw [rebaseStale, look_freeStale (blocksOk_rebasedRecords o b hb).1, look_rebasedRecords]

/-- What a rebase frees whatever its references. -/
theorem look_rebaseSettled_overtaken {d : Nat} (h : Overtaken s (generationOf s o) d) :
    look (rebaseSettled o b s).1.objects d = none := by
  have merge := rebaseStale_merge o b s
  have wf := (blocksOk_rebaseStale hb o b).1
  have stale : (∃ p, staleDelta s (generationOf s o) = some p ∧ p.1 = d) → look (rebaseStale o b s).objects d = none := by
    rintro ⟨p, hp, rfl⟩
    rw [look_rebaseStale hb, hp]
    exact if_pos rfl
  unfold rebaseSettled
  rw [← rebaseStale]
  by_cases reached : ∃ j, s.merge = some j ∧ j.target ≤ generationOf s o
  · obtain ⟨j, hj, ht⟩ := reached
    rw [abortReached_some (merge.trans hj) ht, look_failMerge wf]
    rcases h with h | ⟨i, hi, _, rfl⟩
    · rw [stale h]
      split <;> rfl
    · rw [hj] at hi
      cases hi
      exact if_pos rfl
  · rw [abortReached_none (fun j hj => not_le.1 (fun ht => reached ⟨j, merge.symm.trans hj, ht⟩))]
    rcases h with h | ⟨j, hj, ht, _⟩
    · exact stale h
    · exact absurd ⟨j, hj, ht⟩ reached

/-- What a rebase makes of every other object before its hand-off. -/
theorem look_rebaseSettled {d : Nat} (h : ¬Overtaken s (generationOf s o) d) : look (rebaseSettled o b s).1.objects d =
    (look s.objects d).map (fun r => { r with state := rebasedState o b s d r.state,
                                              refs := refsAfterAbort s (generationOf s o) d r.refs }) := by
  have merge := rebaseStale_merge o b s
  have wf := (blocksOk_rebaseStale hb o b).1
  have stays : look (rebaseStale o b s).objects d = (look s.objects d).map (fun r => { r with state := rebasedState o b s d r.state }) := by
    rw [look_rebaseStale hb, if_neg]
    intro e
    obtain ⟨p, hp, e⟩ := Option.map_eq_some_iff.1 e
    exact h (Or.inl ⟨p, hp, e⟩)
  unfold rebaseSettled refsAfterAbort
  rw [← rebaseStale]
  cases hj : s.merge with
  | none =>
    rw [abortReached_none (fun j e => by rw [merge, hj] at e; cases e)]
    exact stays
  | some j =>
    by_cases ht : j.target ≤ generationOf s o
    · rw [abortReached_some (merge.trans hj) ht, look_failMerge wf, if_neg (fun e => h (Or.inr ⟨j, hj, ht, e.symm⟩)), stays,
        Option.map_map]
      simp only [if_pos ht]
      rfl
    · rw [abortReached_none (fun i e => by rw [merge, hj] at e; cases e; exact not_le.1 ht), stays]
      simp only [if_neg ht]

end

theorem RosterWork.withMerge {s t : State} (h : RosterWork s t) (m : Option MergeJob) :
    RosterWork { s with merge := m } { t with merge := m } := by
  constructor
  conv_lhs => rw [h.rest]

/-- The end of a merge that a new base reaches works on the job, the objects and the reports. -/
theorem rosterWork_abortReached (g : Nat) (s : State) :
    RosterWork { s with merge := (abortReached g s).1.merge } (abortReached g s).1 := by
  unfold abortReached
  split
  · exact RosterWork.refl s
  · rename_i j hj
    split
    · have idle := rosterWork_failMerge_idle j .superseded j.entriesWritten s
      have merge := congrArg State.merge idle.rest
      dsimp only at merge ⊢
      rwa [merge]
    · exact RosterWork.refl s

/-- Of the other fields a rebase changes the BLOCK record and the merge job before its hand-off. -/
theorem rosterWork_rebaseSettled (o : Nat) (b : BlockRecord) (s : State) : RosterWork
    { s with block := some (rebasedRecord o b s), merge := (rebaseSettled o b s).1.merge } (rebaseSettled o b s).1 :=
  ((rosterWork_rebaseStale o b s).withMerge _).trans (rosterWork_abortReached _ _)

/-- A merge that the new base reaches has ended and released its sources; another one goes on. -/
theorem rebaseSettled_merge (o : Nat) (b : BlockRecord) (s : State) :
    (∀ j, s.merge = some j → j.target ≤ generationOf s o →
      (rebaseSettled o b s).1.merge = none ∧ (rebaseSettled o b s).2 = j.sources) ∧
    ((∀ j, s.merge = some j → generationOf s o < j.target) →
      (rebaseSettled o b s).1.merge = s.merge ∧ (rebaseSettled o b s).2 = []) := by
  have merge := rebaseStale_merge o b s
  unfold rebaseSettled
  rw [← rebaseStale]
  refine ⟨fun j hj ht => ?_, fun h => ?_⟩
  · rw [abortReached_some (merge.trans hj) ht, (rosterWork_failMerge_idle j _ _ _).rest]
    exact ⟨rfl, rfl⟩
  · rw [abortReached_none (fun j hj => h j (merge.symm.trans hj))]
    exact ⟨merge, rfl⟩

/-! ## The objects of a rebase once it is handed off (R16, R19, R20, R36) -/

theorem rebase_eq_handOff (o : Nat) (b : BlockRecord) (s : State) :
    rebase o b s = handOff none (rebasedOut o b s) (rebaseSettled o b s).2 (rebaseSettled o b s).1 := rebase_eq o b s

theorem mem_rebasedOut {o : Nat} {b : BlockRecord} {s : State} {d : Nat} :
    d ∈ rebasedOut o b s ↔ d = b.baseObject ∨ (d ∈ b.chain ∧ generationOf s d ≤ generationOf s o) := by
  rw [rebasedOut, List.mem_cons, mem_coveredDeltas]

theorem mem_rebaseReleased {o : Nat} {b : BlockRecord} {s : State} {d : Nat} :
    d ∈ (rebaseSettled o b s).2 ↔ ∃ j, s.merge = some j ∧ j.target ≤ generationOf s o ∧ d ∈ j.sources := by
  obtain ⟨reached, other⟩ := rebaseSettled_merge o b s
  by_cases h : ∃ j, s.merge = some j ∧ j.target ≤ generationOf s o
  · obtain ⟨j, hj, ht⟩ := h
    rw [(reached j hj ht).2]
    constructor
    · exact fun hd => ⟨j, hj, ht, hd⟩
    · rintro ⟨i, hi, _, hd⟩
      rw [hj] at hi
      cases hi
      exact hd
  · rw [(other (fun j hj => not_le.1 (fun ht => h ⟨j, hj, ht⟩))).2]
    constructor
    · exact fun hd => (by cases hd)
    · exact fun ⟨j, hj, ht, _⟩ => absurd ⟨j, hj, ht⟩ h

theorem published_of_rebasedOut {s : State} {o : Nat} {b : BlockRecord} (records : RecordsOk s) (hr : s.block = some b) {d : Nat}
    (h : d ∈ rebasedOut o b s) : ∃ k, ObjectIs s d k .published := by
  rcases mem_rebasedOut.1 h with rfl | ⟨h, _⟩
  · exact ⟨_, records.base b hr⟩
  · exact ⟨_, records.chain b hr d h⟩

section
variable {s : State} {o : Nat} {b : BlockRecord} (hb : BlocksOk s) (records : RecordsOk s) (ho : ObjectIs s o .base .staged)
  (hr : s.block = some b)
include hb

/-- The hand-off of a rebase frees what is RETIRING without a reference. -/
theorem look_rebase (d : Nat) : look (rebase o b s).objects d = (look (rebaseSettled o b s).1.objects d).bind (fun r =>
    if d ∈ rebasedOut o b s ++ (rebaseSettled o b s).2 ∧ r.state = .retiring ∧ r.refs = 0 then none else some r) := by
  rw [rebase_eq_handOff]
  exact look_handOff _ _ _ _ _ ((inside_abortReached _ _).blocks (blocksOk_rebaseStale hb o b)).1

theorem look_rebase_unused {d : Nat} (h : look s.objects d = none) : look (rebase o b s).objects d = none := by
  rw [look_rebase hb]
  by_cases hd : Overtaken s (generationOf s o) d
  · rw [look_rebaseSettled_overtaken hb o b hd]
    rfl
  · rw [look_rebaseSettled hb o b hd, h]
    rfl

theorem look_rebase_overtaken {d : Nat} (h : Overtaken s (generationOf s o) d) : look (rebase o b s).objects d = none := by
  rw [look_rebase hb, look_rebaseSettled_overtaken hb o b h]
  rfl

/-- An object that a rebase neither takes out nor publishes nor frees keeps its state. -/
theorem look_rebase_stays {d : Nat} {q : ContentObject} (hq : look s.objects d = some q) (out : d ∉ rebasedOut o b s)
    (released : q.state = .retiring → d ∉ (rebaseSettled o b s).2) (hd : d ≠ o) (h : ¬Overtaken s (generationOf s o) d) :
    look (rebase o b s).objects d = some { q with refs := refsAfterAbort s (generationOf s o) d q.refs } := by
  have state : rebasedState o b s d q.state = q.state := by rw [rebasedState, if_neg out, if_neg hd]
  rw [look_rebase hb, look_rebaseSettled hb o b h, hq, Option.map_some, Option.bind_some, state, if_neg]
  rintro ⟨mem, retiring, _⟩
  rcases List.mem_append.1 mem with mem | mem
  · exact out mem
  · exact released retiring mem

include records

/-- An object that is neither STAGED nor BUILDING is not freed at once. -/
theorem not_overtaken {g d : Nat} {q : ContentObject} (hq : look s.objects d = some q) (h1 : q.state ≠ .staged)
    (h2 : q.state ≠ .building) : ¬Overtaken s g d := by
  rintro (⟨p, hp, rfl⟩ | ⟨j, hj, _, rfl⟩)
  · obtain ⟨x, hx, _, hs⟩ := objectIs_of_objectOf hb (objectOf_of_staleDelta hp)
    rw [hq] at hx
    cases hx
    exact h1 hs
  · obtain ⟨x, hx, _, hs⟩ := records.result j hj
    rw [hq] at hx
    cases hx
    exact h2 hs

include ho hr

/-- A STAGED object other than the new base stays STAGED when no staged delta is stale. -/
theorem objectIs_rebase_staged {d : Nat} {k : ObjKind} (h : ObjectIs s d k .staged) (hk : k ≠ .base)
    (current : staleDelta s (generationOf s o) = none) : ObjectIs (rebase o b s) d k .staged := by
  obtain ⟨q, hq, kind, state⟩ := h
  refine ⟨_, look_rebase_stays hb hq (fun out => ?_) (fun e => by rw [state] at e; cases e) (fun e => ?_) ?_, kind, state⟩
  · obtain ⟨_, x, hx, _, hs⟩ := published_of_rebasedOut records hr out
    rw [hq] at hx
    cases hx
    rw [state] at hs
    cases hs
  · subst e
    obtain ⟨x, hx, hb, _⟩ := ho
    rw [hq] at hx
    cases hx
    exact hk (kind.symm.trans hb)
  · rintro (⟨p, hp, _⟩ | ⟨j, hj, _, rfl⟩)
    · rw [current] at hp
      cases hp
    · obtain ⟨x, hx, _, hs⟩ := records.result j hj
      rw [hq] at hx
      cases hx
      rw [state] at hs
      cases hs

/-- An object taken out of the chain, or a RETIRING source of an aborted merge, goes with its last reference. -/
theorem look_rebase_goes {d : Nat} {q : ContentObject} (hq : look s.objects d = some q)
    (h : d ∈ rebasedOut o b s ∨ (q.state = .retiring ∧ d ∈ (rebaseSettled o b s).2)) : look (rebase o b s).objects d =
      if refsAfterAbort s (generationOf s o) d q.refs = 0 then none
      else some { q with state := .retiring, refs := refsAfterAbort s (generationOf s o) d q.refs } := by
  have state : q.state = .published ∨ q.state = .retiring := by
    rcases h with h | h
    · obtain ⟨k, x, hx, _, hs⟩ := published_of_rebasedOut records hr h
      rw [hq] at hx
      cases hx
      exact Or.inl hs
    · exact Or.inr h.1
  have stays : ¬Overtaken s (generationOf s o) d :=
    not_overtaken hb records hq (by rcases state with e | e <;> rw [e] <;> decide) (by rcases state with e | e <;> rw [e] <;> decide)
  have retiring : rebasedState o b s d q.state = .retiring := by
    unfold rebasedState
    rcases h with h | ⟨h, _⟩
    · exact if_pos h
    · obtain ⟨x, hx, _, hs⟩ := ho
      rw [if_neg (fun (e : d = o) => by subst e; rw [hq] at hx; cases hx; rw [h] at hs; cases hs), h, ite_self]
  have mem : d ∈ rebasedOut o b s ++ (rebaseSettled o b s).2 := List.mem_append.2 (h.imp id And.right)
  rw [look_rebase hb, look_rebaseSettled hb o b stays, hq, Option.map_some, Option.bind_some, retiring]
  simp only [mem, true_and]

end

/-! ## PUBLISH of the base -/

/-- A publish of the base that finds one staged. -/
theorem exec_publishBase_staged {s : State} {tag : Byte} {o : Nat} (hq : Held s tag (.publish 2 2))
    (ho : objectOf s .base .staged = some o) :
    (s.block = none → exec .publishBase s = .next (chooseAll (publishReply tag none (startChain o s)))) ∧
    (∀ b, s.block = some b →
      exec .publishBase s = .next (chooseAll (publishReply tag (staleDelta s (generationOf s o)) (rebase o b s)))) := by
  have paired : pairedKind 2 2 = some .base := rfl
  constructor
  · intro hb
    simp only [exec, execPublishBase, show s.host.processor = .busy tag (.publish 2 2) from hq, paired, ho, hb]
  · intro b hb
    simp only [exec, execPublishBase, show s.host.processor = .busy tag (.publish 2 2) from hq, paired, ho, hb]

/-- The state of a first base publish once the record stands (R17). -/
def chainStarted (o : Nat) (r : ContentObject) (s : State) : State :=
  { s with objects := put s.objects o { r with state := .published }, block := some ⟨r.generation, r.generation, o, []⟩ }

theorem startChain_eq {s : State} {o : Nat} {r : ContentObject} (hr : look s.objects o = some r) :
    startChain o s = handOff (some .block) [] [] (chainStarted o r s) := by
  rw [startChain, setObjectState_of_look hr, generationOf_of_look hr]
  rfl

theorem refsAfterAbort_of {s : State} {g d n refs : Nat} (h1 : s.merge = none → refs = n)
    (h2 : ∀ j, s.merge = some j → refs = if j.target ≤ g then n - j.sources.count d else n) : refs = refsAfterAbort s g d n := by
  unfold refsAfterAbort
  cases hj : s.merge with
  | none => exact h1 hj
  | some j => exact h2 j hj

theorem staleDelta_of {s : State} {d : Nat} {q : ContentObject} (g : Nat) (hd : objectOf s .delta .staged = some d)
    (hq : look s.objects d = some q) : staleDelta s g = if q.generation ≤ g then some (d, q.generation) else none := by
  unfold staleDelta
  rw [hd]
  dsimp only
  rw [generationOf_of_look hq]

/-- The fields of a stale staged delta in the reply of a rebase. -/
def staleFields (s : State) (g : Nat) : List Byte :=
  leBytes 1 (orNone ((staleDelta s g).map Prod.fst)) ++ leBytes 2 (orZero ((staleDelta s g).map Prod.snd))

/-- They name the staged delta when the new base reaches its generation, and nothing otherwise. -/
theorem staleFields_eq (s : State) (g : Nat) :
    (∀ d q, objectOf s .delta .staged = some d → look s.objects d = some q → q.generation ≤ g →
      staleFields s g = leBytes 1 d ++ leBytes 2 q.generation) ∧
    (∀ d q, objectOf s .delta .staged = some d → look s.objects d = some q → g < q.generation →
      staleFields s g = leBytes 1 255 ++ leBytes 2 0) ∧
    (objectOf s .delta .staged = none → staleFields s g = leBytes 1 255 ++ leBytes 2 0) := by
  unfold staleFields
  refine ⟨fun d q hd hq hg => ?_, fun d q hd hq hg => ?_, fun hd => ?_⟩
  · rw [staleDelta_of _ hd hq, if_pos hg]
    rfl
  · rw [staleDelta_of _ hd hq, if_neg (not_le.2 hg)]
    rfl
  · rw [staleDelta, hd]
    rfl

section
variable {s : State} {o : Nat} {b : BlockRecord}

/-- The state of a rebase once it is carried out. -/
def rebased (tag : Byte) (o : Nat) (b : BlockRecord) (s : State) : State :=
  chooseAll (publishReply tag (staleDelta s (generationOf s o)) (rebase o b s))

theorem rebased_objects (tag : Byte) (o : Nat) (b : BlockRecord) (s : State) : (rebased tag o b s).objects = (rebase o b s).objects := by
  rw [rebased, (chosen_chooseAll _).objects_eq]
  rfl

theorem publishEnds_rebased (tag : Byte) (o : Nat) (b : BlockRecord) (s : State) : PublishEnds tag (staleDelta s (generationOf s o))
    { s with block := some (rebasedRecord o b s), merge := (rebaseSettled o b s).1.merge } (rebased tag o b s) := by
  rw [rebased, rebase_eq_handOff]
  exact (publishEnds_handOff ..).of_rosterWork (rosterWork_rebaseSettled o b s)

/-- What the records of a rebase name is there once it is carried out. -/
theorem recordsOk_rebased (hb : BlocksOk s) (records : RecordsOk s) (ho : ObjectIs s o .base .staged) (hr : s.block = some b)
    (tag : Byte) : RecordsOk (rebased tag o b s) := by
  have chosen := chosen_chooseAll (publishReply tag (staleDelta s (generationOf s o)) (rebase o b s))
  exact (recordsOk_rebase records hb ho hr).of_eq chosen.objects_eq chosen.fare_eq chosen.block_eq chosen.merge_eq

/-- The objects that go, and those that stay, object by object (R16, R20, R36). -/
theorem look_rebase_entry (hb : BlocksOk s) (records : RecordsOk s) (ho : ObjectIs s o .base .staged) (hr : s.block = some b)
    {d : Nat} {q : ContentObject} (hq : look s.objects d = some q) {goes : Prop} (hgoes : goes ↔ d = b.baseObject ∨
      (d ∈ b.chain ∧ generationOf s d ≤ generationOf s o) ∨
      (q.state = .retiring ∧ ∃ j, s.merge = some j ∧ j.target ≤ generationOf s o ∧ d ∈ j.sources)) :
    (goes → (refsAfterAbort s (generationOf s o) d q.refs = 0 → look (rebase o b s).objects d = none) ∧
      (refsAfterAbort s (generationOf s o) d q.refs ≠ 0 → look (rebase o b s).objects d =
        some { q with state := .retiring, refs := refsAfterAbort s (generationOf s o) d q.refs })) ∧
    (¬goes → d ≠ o → objectOf s .delta .staged ≠ some d →
      (∀ j, s.merge = some j → j.target ≤ generationOf s o → d ≠ j.result) →
      look (rebase o b s).objects d = some { q with refs := refsAfterAbort s (generationOf s o) d q.refs }) := by
  rw [← or_assoc, ← mem_rebasedOut, ← mem_rebaseReleased (b := b)] at hgoes
  refine ⟨fun g => ?_, fun stays hd hstale hresult => ?_⟩
  · rw [look_rebase_goes hb records ho hr hq (hgoes.1 g)]
    exact ⟨fun h0 => if_pos h0, fun h0 => if_neg h0⟩
  · refine look_rebase_stays hb hq (fun h => stays (hgoes.2 (Or.inl h))) (fun h g => stays (hgoes.2 (Or.inr ⟨h, g⟩))) hd ?_
    rintro (⟨p, hp, rfl⟩ | ⟨j, hj, ht, rfl⟩)
    · exact hstale (objectOf_of_staleDelta hp)
    · exact hresult j hj ht rfl

end

/-- Settles O21: the first base by startChain_eq; a later one by look_rebase_entry for the objects, recordsOk_rebased for what the records
name and publishEnds_rebased for the rest. -/
theorem publishBaseOutcome : Obligations.PublishBaseOutcome := by
  intro s tag hq
  refine ⟨fun hn => ?_, fun o r hb records ho hr => ?_⟩
  · have paired : pairedKind 2 2 = some .base := rfl
    simp only [exec, execPublishBase, show s.host.processor = .busy tag (.publish 2 2) from hq, paired, hn]
    rfl
  have staged := objectIs_of_objectOf hb ho
  obtain ⟨first, later⟩ := exec_publishBase_staged hq ho
  rcases Option.eq_none_or_eq_some s.block with hk | ⟨b, hk⟩
  · refine ⟨_, _, first hk, rfl, chosen_chooseAll _, ?_⟩
    have told := slotsTold_publishReply (slotsTold_startChain o s) tag none
    have ends := publishEnds_handOff tag none (some .block) [] [] (chainStarted o r s)
    obtain ⟨objects, pool⟩ := published_nothingRetired tag none (some .block) (chainStarted o r s)
    rw [← startChain_eq hr] at ends objects pool
    obtain ⟨q, hq, kind, _⟩ := staged
    rw [hr] at hq
    cases hq
    refine ⟨⟨{ r with state := .published }, ?_, kind, rfl⟩, ends.fare, ends.idle, ends.due,
      ⟨ends.content, ends.vehicles, ends.clock, ends.scanner, ends.policy, ends.now⟩, fun _ => ?_, fun b e => ?_⟩
    · rw [objects]
      exact look_put_same ..
    · exact ⟨ends.block, ends.merge, objects, pool, told, ends.reply⟩
    · rw [hk] at e
      cases e
  · refine ⟨rebased tag o b s, _, later b hk, rfl, chosen_chooseAll _, ?_⟩
    have told := slotsTold_publishReply (slotsTold_rebase o b s) tag (staleDelta s (generationOf s o))
    have ends := publishEnds_rebased tag o b s
    have after := recordsOk_rebased hb records staged hk tag
    obtain ⟨reached, other⟩ := rebaseSettled_merge o b s
    rw [← generationOf_of_look hr]
    refine ⟨after.base (rebasedRecord o b s) ends.block, ends.fare, ends.idle, ends.due,
      ⟨ends.content, ends.vehicles, ends.clock, ends.scanner, ends.policy, ends.now⟩, fun e => (by rw [hk] at e; cases e), fun c e => ?_⟩
    rw [hk] at e
    cases e
    refine ⟨?_, told, fun d q refs hq h1 h2 goes hgoes => ?_, fun d hd => ?_,
      fun d hd hg => after.chain (rebasedRecord o b s) ends.block d (mem_keptDeltas.2 ⟨hd, hg⟩), fun d q hd hq => ⟨fun hg => ?_, fun hg => ?_⟩,
      fun j hj => ⟨fun ht => ⟨?_, ?_⟩, fun ht => ?_⟩,
      staleFields s (generationOf s o), ?_, staleFields_eq s _⟩
    · rw [ends.block]
      rfl
    · rw [rebased_objects, refsAfterAbort_of h1 h2]
      exact look_rebase_entry hb records staged hk hq hgoes
    · rw [rebased_objects]
      exact look_rebase_unused hb hd
    · rw [rebased_objects]
      exact look_rebase_overtaken hb (Or.inl ⟨_, (staleDelta_of _ hd hq).trans (if_pos hg), rfl⟩)
    · have current := (staleDelta_of (generationOf s o) hd hq).trans (if_neg (not_le.2 hg))
      have stays := objectIs_rebase_staged hb records staged hk (objectIs_of_objectOf hb hd) (by decide) current
      unfold ObjectIs
      rwa [rebased_objects]
    · rw [ends.merge]
      exact (reached j hj ht).1
    · rw [rebased_objects]
      exact look_rebase_overtaken hb (Or.inr ⟨j, hj, ht, rfl⟩)
    · rw [ends.merge]
      exact (other (fun i e => by rw [hj] at e; cases e; exact ht)).1
    · rw [ends.reply, publishFields, List.append_assoc _ (leBytes 1 _)]
      rfl

end Sys2Proof.Machine

/-! PROOFS. What a publish makes of the roster and of the report queue (R18, R20, R36, R56 to R59). -/

namespace Sys2Proof.Machine

/-! ## Reports (R151) -/

/-- A report changes the host link alone, by the report threshold, the clock's count and the link as it is. -/
theorem submit_host_congr {s t : State} (hh : t.host = s.host) (hp : t.policy = s.policy) (hc : t.clock = s.clock) (b : ReportBody) :
    (submit b t).host = (submit b s).host := by
  unfold submit
  rw [hh, hp, hc]
  split_ifs
  · exact hh
  all_goals rfl

/-- `t` is `s` with some reports submitted, its roster as it was; of the catalogue nothing is said. -/
structure Reported (bs : List ReportBody) (s t : State) : Prop where
  validators : t.validators = s.validators
  vehicles : t.vehicles = s.vehicles
  policy : t.policy = s.policy
  clock : t.clock = s.clock
  host : t.host = (submitAll bs s).host

theorem reported_submitAll (bs : List ReportBody) (s : State) : Reported bs s (submitAll bs s) where
  validators := submitAll_validators bs s
  vehicles := submitAll_vehicles bs s
  policy := by rw [(rosterWork_submitAll bs s).rest]
  clock := by rw [(rosterWork_submitAll bs s).rest]
  host := rfl

theorem submitAll_host_congr {s t : State} (hh : t.host = s.host) (hp : t.policy = s.policy) (hc : t.clock = s.clock)
    (bs : List ReportBody) : (submitAll bs t).host = (submitAll bs s).host := by
  induction bs generalizing s t with
  | nil => exact hh
  | cons b bs ih =>
    exact ih (submit_host_congr hh hp hc b) (by simpa using hp) (by simpa using hc)

theorem submitAll_append (as bs : List ReportBody) (s : State) : submitAll (as ++ bs) s = submitAll bs (submitAll as s) :=
  List.foldl_append

/-- Work that submits no report. -/
theorem reported_nil {s t : State} (h1 : t.validators = s.validators) (h2 : t.vehicles = s.vehicles) (h3 : t.policy = s.policy)
    (h4 : t.clock = s.clock) (h5 : t.host = s.host) : Reported [] s t := ⟨h1, h2, h3, h4, h5⟩

theorem Reported.refl (s : State) : Reported [] s s := reported_nil rfl rfl rfl rfl rfl

theorem Reported.trans {as bs : List ReportBody} {s t u : State} (h : Reported as s t) (k : Reported bs t u) :
    Reported (as ++ bs) s u where
  validators := k.validators.trans h.validators
  vehicles := k.vehicles.trans h.vehicles
  policy := k.policy.trans h.policy
  clock := k.clock.trans h.clock
  host := by
    have sent := reported_submitAll as s
    rw [submitAll_append]
    exact k.host.trans (submitAll_host_congr h.host (h.policy.trans sent.policy.symm) (h.clock.trans sent.clock.symm) bs)

theorem reported_submit (b : ReportBody) (s : State) : Reported [b] s (submit b s) := reported_submitAll [b] s

theorem Reported.foldl_nil {α : Type} (f : State → α → State) (hf : ∀ t a, Reported [] t (f t a)) (l : List α) (s : State) :
    Reported [] s (l.foldl f s) := by
  induction l generalizing s with
  | nil => exact Reported.refl s
  | cons a l ih => exact (hf s a).trans (ih (f s a))

theorem reported_modObject (o : Nat) (f : ContentObject → ContentObject) (s : State) : Reported [] s (modObject o f s) :=
  reported_nil (by simp) (by simp) (by simp) (by simp) (by simp)

theorem reported_freeObject (o : Nat) (s : State) : Reported [] s (freeObject o s) :=
  reported_nil (by simp) (by simp) (by simp) (by simp) (by simp)

/-! ### Retirement (R20) -/

/-- The report of a RETIRING object without a reference. -/
def retireReport (s : State) (o : Nat) : List ReportBody :=
  match look s.objects o with
  | none => []
  | some r => if r.state = .retiring ∧ r.refs = 0 then [.objectRetired o r.kind r.generation] else []

/-- The reports of several objects, each freed before the next is looked at. -/
def retireReports : List Nat → State → List ReportBody
  | [], _ => []
  | o :: os, s => retireReport s o ++ retireReports os (retireIfUnused o s)

theorem reported_retireIfUnused (o : Nat) (s : State) : Reported (retireReport s o) s (retireIfUnused o s) := by
  unfold retireReport retireIfUnused
  cases look s.objects o with
  | none => exact Reported.refl s
  | some r =>
    dsimp only
    split
    · exact (reported_freeObject o s).trans (reported_submit _ _)
    · exact Reported.refl s

theorem reported_retireSources (os : List Nat) (s : State) : Reported (retireReports os s) s (retireSources os s) := by
  induction os generalizing s with
  | nil => exact Reported.refl s
  | cons o os ih => exact (reported_retireIfUnused o s).trans (ih (retireIfUnused o s))

theorem mem_retireReport {s : State} {o : Nat} {x : ReportBody} : x ∈ retireReport s o ↔
    ∃ r, look s.objects o = some r ∧ r.state = .retiring ∧ r.refs = 0 ∧ x = .objectRetired o r.kind r.generation := by
  unfold retireReport
  cases look s.objects o with
  | none => simp
  | some r =>
    by_cases h : r.state = .retiring ∧ r.refs = 0
    · simp [h]
    · simp only [if_neg h, List.not_mem_nil, false_iff]
      rintro ⟨q, e, h1, h2, _⟩
      cases e
      exact h ⟨h1, h2⟩

/-- Every such report is an OBJECT_RETIRED. -/
theorem retireReports_form (os : List Nat) (s : State) : ∀ x ∈ retireReports os s, ∃ o k g, x = .objectRetired o k g := by
  induction os generalizing s with
  | nil => exact fun x h => (by cases h)
  | cons o os ih =>
    intro x h
    rcases List.mem_append.1 h with h | h
    · obtain ⟨r, _, _, _, e⟩ := mem_retireReport.1 h
      exact ⟨_, _, _, e⟩
    · exact ih _ x h

/-- The objects reported are those of the list that are RETIRING without a reference. -/
theorem mem_retireReports (os : List Nat) (s : State) (hs : tableWf Config.objectEntries 0 s.objects = true) (x : ReportBody) :
    x ∈ retireReports os s ↔ ∃ o ∈ os, ∃ r, look s.objects o = some r ∧ r.state = .retiring ∧ r.refs = 0 ∧
      x = .objectRetired o r.kind r.generation := by
  induction os generalizing s with
  | nil => simp [retireReports]
  | cons a os ih =>
    have later : ∀ o r, look (retireIfUnused a s).objects o = some r ∧ r.state = .retiring ∧ r.refs = 0 ↔
        look s.objects o = some r ∧ r.state = .retiring ∧ r.refs = 0 ∧ o ≠ a := by
      intro o r
      rw [look_retireIfUnused a o s hs]
      cases look s.objects o with
      | none => simp
      | some q =>
        rw [Option.bind_some, Option.ite_none_left_eq_some]
        constructor
        · rintro ⟨⟨h, e⟩, h1, h2⟩
          cases e
          exact ⟨rfl, h1, h2, fun e => h ⟨e, h1, h2⟩⟩
        · rintro ⟨e, h1, h2, ho⟩
          exact ⟨⟨fun h => ho h.1, e⟩, h1, h2⟩
    rw [retireReports, List.mem_append, mem_retireReport, ih _ (wf_retireIfUnused a s hs)]
    constructor
    · rintro (⟨r, hr⟩ | ⟨o, ho, r, h1, h2, h3, e⟩)
      · exact ⟨a, List.mem_cons_self, r, hr⟩
      · obtain ⟨h1, h2, h3, _⟩ := (later o r).1 ⟨h1, h2, h3⟩
        exact ⟨o, List.mem_cons_of_mem a ho, r, h1, h2, h3, e⟩
    · rintro ⟨o, ho, r, h1, h2, h3, e⟩
      by_cases h : o = a
      · subst h
        exact Or.inl ⟨r, h1, h2, h3, e⟩
      · obtain ⟨h1, h2, h3⟩ := (later o r).2 ⟨h1, h2, h3, h⟩
        exact Or.inr ⟨o, (List.mem_cons.1 ho).resolve_left h, r, h1, h2, h3, e⟩

/-! ## The roster (R18, R56 to R59) -/

/-- The entry of a validator after a publish. -/
def republished (first : Option Stream) (s : State) (v : Validator) : Validator :=
  recomputed s { v with flags := { v.flags with rejected := false, ahead := v.flags.ahead ||
    (decide (first = some .fare) && aheadOf v.heldFare (publishedFare s)) ||
    (decide (first = some .block) && aheadOf v.heldBlock (publishedHead s)) } }

/-- The reports of a validator in a publish. -/
def republishReports (first : Option Stream) (s : State) (v : Validator) : List ReportBody :=
  (if decide (first = some .fare) && aheadOf v.heldFare (publishedFare s) then aheadReport v.serial .fare v.heldFare (publishedFare s)
    else []) ++
  (if decide (first = some .block) && aheadOf v.heldBlock (publishedHead s) then aheadReport v.serial .block v.heldBlock (publishedHead s)
    else []) ++ currentReport s v (republished first s v)

theorem publishValidator_of_look {first : Option Stream} {s : State} {i : Nat} {v : Validator} (h : look s.validators i = some v) :
    publishValidator first s i =
      submitAll (republishReports first s v) { s with validators := put s.validators i (republished first s v) } := by
  unfold publishValidator
  rw [h]
  rfl

/-- What a publish makes of a validator depends on the records, the objects and the vehicles. -/
structure SameRecords (s t : State) : Prop where
  fare : t.fare = s.fare
  block : t.block = s.block
  objects : t.objects = s.objects
  vehicles : t.vehicles = s.vehicles

theorem generationOf_congr {s t : State} (h : SameRecords s t) : generationOf t = generationOf s := by
  funext o
  unfold generationOf
  rw [h.objects]

theorem vehicleNumber_congr {s t : State} (h : t.vehicles = s.vehicles) : vehicleNumber t = vehicleNumber s := by
  funext v
  unfold vehicleNumber
  rw [h]

theorem workList_congr {s t : State} (h : SameRecords s t) (f b : Option Nat) : workList t f b = workList s f b := by
  simp only [workList, blockItems, fareItems, generationOf_congr h, h.fare, h.block]

theorem blockLag_congr {s t : State} (h : SameRecords s t) (b : Option Nat) : blockLag t b = blockLag s b := by
  simp only [blockLag, h.block]

theorem republished_congr {s t : State} (h : SameRecords s t) (first : Option Stream) : republished first t = republished first s := by
  funext v
  simp only [republished, recomputed, workList_congr h, blockLag_congr h, publishedFare, publishedHead, h.fare, h.block]

theorem republishReports_congr {s t : State} (h : SameRecords s t) (first : Option Stream) :
    republishReports first t = republishReports first s := by
  have current : currentReport t = currentReport s := by
    funext before after
    unfold currentReport
    rw [vehicleNumber_congr h.vehicles]
  funext v
  unfold republishReports
  rw [republished_congr h, current, publishedFare, publishedHead, h.fare, h.block]
  rfl

theorem SameRecords.trans {s t u : State} (h : SameRecords s t) (k : SameRecords t u) : SameRecords s u :=
  ⟨k.fare.trans h.fare, k.block.trans h.block, k.objects.trans h.objects, k.vehicles.trans h.vehicles⟩

theorem sameRecords_submitAll (bs : List ReportBody) (s : State) : SameRecords s (submitAll bs s) := by
  obtain ⟨_, _, objects, fare, block, _⟩ := Catalogue.mk.inj (submitAll_catalogue s bs)
  exact ⟨fare, block, objects, submitAll_vehicles bs s⟩

/-- The entry in use at a number is found and replaced in its place. -/
theorem look_put_middle {α : Type} (done rest : Table α) (k : Nat) (a b : α) (h : ∀ p ∈ done, p.1 < k) :
    look (done ++ (k, a) :: rest) k = some a ∧ put (done ++ (k, a) :: rest) k b = done ++ (k, b) :: rest := by
  induction done with
  | nil => simp [look, put]
  | cons p done ih =>
    have hp : p.1 < k := h p List.mem_cons_self
    obtain ⟨found, replaced⟩ := ih (fun q hq => h q (List.mem_cons_of_mem p hq))
    constructor
    · rw [List.cons_append, look, if_neg (Nat.ne_of_lt hp), found]
    · rw [List.cons_append, put, if_neg (by omega), if_neg (by omega), replaced]
      rfl

/-- The recomputation of the validators that are left, after those before them: each in its place, the reports in their order. -/
theorem publishValidator_foldl (first : Option Stream) (rest : Table Validator) : ∀ (done : Table Validator) (s : State),
    s.validators = done ++ rest → (keys (done ++ rest)).Pairwise (· < ·) →
    ((keys rest).foldl (publishValidator first) s).validators = done ++ rest.map (fun p => (p.1, republished first s p.2)) ∧
      ((keys rest).foldl (publishValidator first) s).host =
        (submitAll (rest.flatMap (fun p => republishReports first s p.2)) s).host := by
  induction rest with
  | nil => exact fun done s hs _ => ⟨hs, rfl⟩
  | cons p rest ih =>
    obtain ⟨k, v⟩ := p
    intro done s hs rising
    have before : ∀ p ∈ done, p.1 < k := fun p hp => by
      rw [keys, List.map_append] at rising
      exact (List.pairwise_append.1 rising).2.2 p.1 (List.mem_map_of_mem hp) k List.mem_cons_self
    obtain ⟨found, replaced⟩ := look_put_middle done rest k v (republished first s v) before
    have turn := publishValidator_of_look (first := first) (hs ▸ found)
    rw [hs, replaced] at turn
    generalize hu : ({ s with validators := done ++ (k, republished first s v) :: rest } : State) = u at turn
    have toU : SameRecords s u := hu ▸ ⟨rfl, rfl, rfl, rfl⟩
    have host : u.host = s.host := by rw [← hu]
    have policy : u.policy = s.policy := by rw [← hu]
    have clock : u.clock = s.clock := by rw [← hu]
    have same : SameRecords s (publishValidator first s k) := turn ▸ toU.trans (sameRecords_submitAll _ u)
    have sent := reported_submitAll (republishReports first s v) u
    rw [← turn] at sent
    have table : (publishValidator first s k).validators = (done ++ [(k, republished first s v)]) ++ rest := by
      rw [sent.validators, ← hu, List.append_assoc]
      rfl
    obtain ⟨valid, reports⟩ := ih _ _ table (by simpa [keys] using rising)
    rw [republished_congr same] at valid
    rw [republishReports_congr same] at reports
    refine ⟨valid.trans (by simp), reports.trans ?_⟩
    rw [List.flatMap_cons, submitAll_append]
    have plain := reported_submitAll (republishReports first s v) s
    exact submitAll_host_congr (sent.host.trans (submitAll_host_congr host policy clock _)) (sent.policy.trans (policy.trans plain.policy.symm))
      (sent.clock.trans (clock.trans plain.clock.symm)) _

/-- What a publish makes of the roster, with its reports. -/
theorem publishRoster_effect (first : Option Stream) (s : State) {cap : Nat} (wf : tableWf cap 0 s.validators = true) :
    (publishRoster first s).validators = s.validators.map (fun p => (p.1, republished first s p.2)) ∧
      (publishRoster first s).host = (submitAll (s.validators.flatMap (fun p => republishReports first s p.2)) s).host :=
  publishValidator_foldl first s.validators [] s rfl (List.pairwise_map.2 (keys_lt cap _ 0 wf))

/-! ## What a publish has recorded before its hand-off -/

/-- The state `u` of a publish before its hand-off: it has failed at most a merge, and given at most one stream its first published
generation. -/
structure Publishing (first : Option Stream) (failed : List ReportBody) (s u : State) : Prop where
  reported : Reported failed s u
  fare : first = some .fare ↔ s.fare = none ∧ u.fare ≠ none
  block : first = some .block ↔ s.block = none ∧ u.block ≠ none
  merge : (u.merge = s.merge ∧ failed = []) ∨
    ∃ j, s.merge = some j ∧ u.merge = none ∧ failed = [.mergeFailed j.result j.target .superseded j.entriesWritten]
  wf : BlocksOk s → tableWf Config.objectEntries 0 u.objects = true
  entries : BlocksOk s → RecordsOk s → ∀ o r, look s.objects o = some r → r.state = .published ∨ r.state = .retiring →
    ∃ q, look u.objects o = some q ∧ q.kind = r.kind ∧ q.generation = r.generation

/-- An object keeps its kind and generation when its other fields are changed. -/
theorem entry_of_map {s u : State} {f : ContentObject → ContentObject} {o : Nat} {r : ContentObject} (hr : look s.objects o = some r)
    (h : look u.objects o = (look s.objects o).map f) (hf : ∀ r, (f r).kind = r.kind ∧ (f r).generation = r.generation) :
    ∃ q, look u.objects o = some q ∧ q.kind = r.kind ∧ q.generation = r.generation := by
  rw [hr] at h
  exact ⟨f r, h, hf r⟩

theorem publishing_fare (o : Nat) (s : State) : Publishing (if s.fare = none then some .fare else none) [] s (fareRetired o s) where
  reported := by
    rw [fareRetired_rest]
    exact reported_nil rfl rfl rfl rfl rfl
  fare := by
    rw [fareRetired_rest]
    cases s.fare <;> simp
  block := by
    rw [fareRetired_rest]
    cases s.fare <;> cases s.block <;> simp
  merge := by
    rw [fareRetired_rest]
    exact Or.inl ⟨rfl, rfl⟩
  wf hb := wf_fareRetired o hb
  entries _ _ d r hr _ := entry_of_map hr (look_fareRetired o d s) (fun _ => ⟨rfl, rfl⟩)

/-- The state of a delta publish, or of a first base publish, once the record stands. -/
theorem publishing_published (o : Nat) (s : State) (first : Option Stream) (b : BlockRecord)
    (h : first = some .block ∧ s.block = none ∨ first = none ∧ s.block ≠ none) :
    Publishing first [] s { setObjectState o .published s with block := some b } where
  reported := (reported_modObject o _ s).trans (reported_nil rfl rfl rfl rfl rfl)
  fare := by
    have same : (setObjectState o .published s).fare = s.fare := modObject_fare ..
    rcases h with ⟨rfl, _⟩ | ⟨rfl, _⟩ <;> simp [same]
  block := by
    rcases h with ⟨rfl, h⟩ | ⟨rfl, h⟩ <;> simp [h]
  merge := Or.inl ⟨modObject_merge .., rfl⟩
  wf hb := wf_modObject _ _ _ hb.1
  entries _ _ d r hr _ := by
    have e := look_modObject o d (fun r => { r with state := .published }) s
    by_cases hd : d = o
    · rw [if_pos hd] at e
      exact entry_of_map (s := s) hr e (fun _ => ⟨rfl, rfl⟩)
    · rw [if_neg hd] at e
      exact ⟨r, e.trans hr, rfl, rfl⟩

theorem reported_rebaseStale (o : Nat) (b : BlockRecord) (s : State) : Reported [] s (rebaseStale o b s) := by
  have records : Reported [] s { setObjectState o .published s with block := some (rebasedRecord o b s) } :=
    (reported_modObject o _ s).trans (reported_nil rfl rfl rfl rfl rfl)
  have retired := records.trans (Reported.foldl_nil (fun t d => setObjectState d .retiring t) (fun t d => reported_modObject d _ t)
    (rebasedOut o b s) _)
  refine retired.trans ?_
  unfold rebaseStale freeStale
  split
  · exact Reported.refl _
  · exact reported_freeObject _ _

theorem reported_failMerge (j : MergeJob) (reason : MergeFailure) (n : Nat) (s : State) :
    Reported [.mergeFailed j.result j.target reason n] s (failMerge j reason n s) := by
  have idle := (reported_freeObject j.result s).trans
    (Reported.foldl_nil (fun t o => releaseRef o t) (fun t o => reported_modObject o _ t) j.sources _)
  have freed : Reported [] s (releaseSources j (freeObject j.result s)) := idle.trans (reported_nil rfl rfl rfl rfl rfl)
  exact freed.trans (reported_submit _ _)

theorem publishing_rebase (o : Nat) (b : BlockRecord) {s : State} (hr : s.block = some b) :
    ∃ failed, Publishing none failed s (rebaseSettled o b s).1 := by
  have rest := (rosterWork_rebaseSettled o b s).rest
  have fare : (none : Option Stream) = some .fare ↔ s.fare = none ∧ (rebaseSettled o b s).1.fare ≠ none := by
    rw [rest]
    simp
  have block : (none : Option Stream) = some .block ↔ s.block = none ∧ (rebaseSettled o b s).1.block ≠ none := by simp [hr]
  have wf : BlocksOk s → tableWf Config.objectEntries 0 (rebaseSettled o b s).1.objects = true := fun hb =>
    ((inside_abortReached _ _).blocks (blocksOk_rebaseStale hb o b)).1
  have entries : BlocksOk s → RecordsOk s → ∀ d r, look s.objects d = some r → r.state = .published ∨ r.state = .retiring →
      ∃ q, look (rebaseSettled o b s).1.objects d = some q ∧ q.kind = r.kind ∧ q.generation = r.generation := by
    intro hb records d r hr hs
    have stays : ¬Overtaken s (generationOf s o) d := by
      refine not_overtaken hb records hr ?_ ?_ <;> rcases hs with e | e <;> rw [e] <;> decide
    exact entry_of_map hr (look_rebaseSettled hb o b stays) (fun _ => ⟨rfl, rfl⟩)
  have merge := rebaseStale_merge o b s
  by_cases reached : ∃ j, s.merge = some j ∧ j.target ≤ generationOf s o
  · obtain ⟨j, hj, ht⟩ := reached
    have ended := ((rebaseSettled_merge o b s).1 j hj ht).1
    refine ⟨_, ?_, fare, block, Or.inr ⟨j, hj, ended, rfl⟩, wf, entries⟩
    rw [rebaseSettled, ← rebaseStale, abortReached_some (merge.trans hj) ht]
    exact (reported_rebaseStale o b s).trans (reported_failMerge j _ _ _)
  · have on : ∀ j, s.merge = some j → generationOf s o < j.target := fun j hj => not_le.1 (fun ht => reached ⟨j, hj, ht⟩)
    refine ⟨_, ?_, fare, block, Or.inl ⟨((rebaseSettled_merge o b s).2 on).1, rfl⟩, wf, entries⟩
    rw [rebaseSettled, ← rebaseStale, abortReached_none (fun j hj => on j (merge.symm.trans hj))]
    exact reported_rebaseStale o b s

/-- What a PUBLISH command answers: nothing, a refusal, or the hand-off of what it has recorded. -/
inductive Published (s : State) : State → Prop where
  | idle : Published s s
  | refused (tag : Byte) (st : Status) (h : st ≠ .ok) : Published s (refuse 0x07 tag st s)
  | carried (tag : Byte) (first : Option Stream) (failed : List ReportBody) (freed : Option (Nat × Nat)) (retired released : List Nat)
      (u : State) (h : Publishing first failed s u) :
      Published s (chooseAll (publishReply tag freed (handOff first retired released u)))

theorem published_fareImage (s : State) : ∀ t, execPublishFareImage s = .next t → Published s t := by
  intro t h
  unfold execPublishFareImage at h
  split at h <;> cases h
  · split
    · exact .refused _ _ (by decide)
    · split
      · exact .refused _ _ (by decide)
      · rename_i o _
        rw [publishFare_eq]
        exact .carried _ _ [] none _ [] _ (publishing_fare o s)
    · exact .idle
  · exact .idle

theorem published_delta (s : State) : ∀ t, execPublishDelta s = .next t → Published s t := by
  intro t h
  unfold execPublishDelta at h
  split at h <;> cases h
  · split
    · exact .refused _ _ (by decide)
    · split
      · exact .refused _ _ (by decide)
      · exact .refused _ _ (by decide)
      · rename_i o b _ hb
        split
        · rw [publishDelta]
          exact .carried _ none [] none [] [] _ (publishing_published o s none _ (Or.inr ⟨rfl, by simp [hb]⟩))
        · exact .refused _ _ (by decide)
    · exact .idle
  · exact .idle

theorem published_base (s : State) : ∀ t, execPublishBase s = .next t → Published s t := by
  intro t h
  unfold execPublishBase at h
  split at h <;> cases h
  · split
    · exact .refused _ _ (by decide)
    · split
      · exact .refused _ _ (by decide)
      · rename_i o _
        split
        · rename_i hb
          rw [startChain]
          exact .carried _ _ [] none [] [] _ (publishing_published o s (some .block) _ (Or.inl ⟨rfl, hb⟩))
        · rename_i b hb
          obtain ⟨failed, p⟩ := publishing_rebase o b hb
          rw [rebase_eq_handOff]
          exact .carried _ none failed _ _ _ _ p
    · exact .idle
  · exact .idle

theorem published_of_exec {s t : State} {c : Instr} (hc : c ∈ [Instr.publishFareImage, .publishDelta, .publishBase])
    (h : exec c s = .next t) : Published s t := by
  simp only [List.mem_cons, List.not_mem_nil, or_false] at hc
  rcases hc with rfl | rfl | rfl
  · exact published_fareImage s t h
  · exact published_delta s t h
  · exact published_base s t h

/-! ## The roster and the reports of a publish carried out -/

/-- The state of a hand-off before the roster is recomputed. -/
def handOffObjects (retired released : List Nat) (u : State) : State :=
  retireSources (retired ++ released) (retired.foldl (fun t o => retireSlots o t) u)

/-- The reports of the objects that a hand-off frees. -/
def handOffReports (retired released : List Nat) (u : State) : List ReportBody :=
  retireReports (retired ++ released) (retired.foldl (fun t o => retireSlots o t) u)

theorem reported_handOffObjects (retired released : List Nat) (u : State) :
    Reported (handOffReports retired released u) u (handOffObjects retired released u) := by
  have slots : Reported [] u (retired.foldl (fun t o => retireSlots o t) u) := by
    rw [(slotWork_retireSlots retired u).rest]
    exact reported_nil rfl rfl rfl rfl rfl
  exact slots.trans (reported_retireSources _ _)

theorem aheadOf_iff (held published : Option Nat) : aheadOf held published = true ↔
    ∃ p g, published = some p ∧ held = some g ∧ p < g := by
  cases held <;> cases published <;> simp [aheadOf]

/-- GEN_AHEAD is sent when the stream's generation is its first and the held one is above it. -/
theorem aheadReport_gated (c : Bool) (serial : Nat) (st : Stream) (held published : Option Nat) :
    (if (c && aheadOf held published) = true then aheadReport serial st held published else []) =
      if (c && aheadOf held published) = true then [.genAhead serial st (orZero held) (orZero published)] else [] := by
  unfold aheadReport
  cases c <;> cases aheadOf held published <;> rfl

theorem look_mapEntries {α : Type} (f : α → α) (t : Table α) (k : Nat) : look (t.map (fun p => (p.1, f p.2))) k = (look t k).map f := by
  induction t with
  | nil => rfl
  | cons p t ih =>
    obtain ⟨i, a⟩ := p
    rw [List.map_cons, look, look]
    split
    · rfl
    · exact ih

section
variable {s u : State} {first : Option Stream} {failed : List ReportBody} (p : Publishing first failed s u) (tag : Byte)
  (freed : Option (Nat × Nat)) (retired released : List Nat)

/-- The state once a publish has been carried out. -/
def carriedOut (tag : Byte) (freed : Option (Nat × Nat)) (first : Option Stream) (retired released : List Nat) (u : State) : State :=
  chooseAll (publishReply tag freed (handOff first retired released u))

theorem sameRecords_carriedOut (u : State) (first : Option Stream) :
    SameRecords (handOffObjects retired released u) (carriedOut tag freed first retired released u) := by
  have chosen := chosen_chooseAll (publishReply tag freed (handOff first retired released u))
  obtain ⟨_, _, objects, fare, block, _⟩ := Catalogue.mk.inj (publishRoster_catalogue (handOffObjects retired released u) first)
  have vehicles : (publishRoster first (handOffObjects retired released u)).vehicles = (handOffObjects retired released u).vehicles := by
    rw [(rosterWork_publishRoster first _).rest]
  exact ⟨chosen.fare_eq.trans fare, chosen.block_eq.trans block, chosen.objects_eq.trans objects, chosen.vehicles_eq.trans vehicles⟩

include p

theorem carriedOut_validators (wf : RosterOk s) : (carriedOut tag freed first retired released u).validators = s.validators.map (fun q =>
    (q.1, republished first (carriedOut tag freed first retired released u) q.2)) := by
  have same := p.reported.trans (reported_handOffObjects retired released u)
  have roster := (publishRoster_effect first (handOffObjects retired released u) (same.validators ▸ wf.2)).1
  rw [same.validators] at roster
  rw [republished_congr (sameRecords_carriedOut tag freed retired released u first)]
  exact (chosen_chooseAll _).validators_eq.trans roster

theorem carriedOut_host (wf : RosterOk s) : (carriedOut tag freed first retired released u).host =
    { (submitAll (failed ++ handOffReports retired released u ++ s.validators.flatMap (fun q =>
        republishReports first (carriedOut tag freed first retired released u) q.2)) s).host with
      replyPlace := (carriedOut tag freed first retired released u).host.replyPlace, processor := .idle } := by
  have same := p.reported.trans (reported_handOffObjects retired released u)
  have roster := (publishRoster_effect first (handOffObjects retired released u) (same.validators ▸ wf.2)).2
  have sent := same.trans (reported_submitAll (s.validators.flatMap (fun q =>
    republishReports first (carriedOut tag freed first retired released u) q.2)) _)
  rw [same.validators, ← republishReports_congr (sameRecords_carriedOut tag freed retired released u first)] at roster
  rw [← sent.host, ← roster, carriedOut, (chosen_chooseAll _).host_eq]
  rfl

/-- A publish carried out frees the objects that its reports name. -/
theorem mem_handOffReports (hb : BlocksOk s) (hr : RecordsOk s) {o : Nat} {r : ContentObject} (ho : look s.objects o = some r)
    (hs : r.state = .published ∨ r.state = .retiring) : .objectRetired o r.kind r.generation ∈ handOffReports retired released u ↔
      look (carriedOut tag freed first retired released u).objects o = none := by
  have wf := p.wf hb
  obtain ⟨q, hq, hk, hg⟩ := p.entries hb hr o r ho hs
  have objects : look (carriedOut tag freed first retired released u).objects o = look (handOff first retired released u).objects o := by
    rw [carriedOut, (chosen_chooseAll _).objects_eq]
    rfl
  rw [objects, look_handOff _ _ _ _ _ wf, hq, Option.bind_some, handOffReports,
    mem_retireReports _ _ (by rw [objects_retireSlots]; exact wf), objects_retireSlots]
  constructor
  · rintro ⟨o', mem, x, hx, h1, h2, e⟩
    obtain ⟨rfl, _, _⟩ := ReportBody.objectRetired.inj e
    rw [hq] at hx
    cases hx
    exact if_pos ⟨mem, h1, h2⟩
  · intro h
    split at h
    · rename_i c
      exact ⟨o, c.1, q, hq, c.2.1, c.2.2, by rw [hk, hg]⟩
    · cases h

end

/-- Settles O22: published_of_exec tells what a publish has recorded; the roster, the reports and the freed objects follow from the
lemmas about its hand-off. -/
theorem publishRecomputesEveryValidator : Obligations.PublishRecomputesEveryValidator := by
  intro s t c tag q fields wf hq hc h before after
  cases published_of_exec hc h with
  | idle =>
    rw [before] at after
    cases after
  | refused tag st hst =>
    cases after
    exact absurd rfl hst
  | carried tag' first failed freed retired released u p =>
    have table := carriedOut_validators p tag' freed retired released wf
    have host := carriedOut_host p tag' freed retired released wf
    have ends := publishEnds_handOff tag' freed first retired released u
    have freedObjects := fun hb hr o r => mem_handOffReports p tag' freed retired released hb hr (o := o) (r := r)
    have vehicles : (carriedOut tag' freed first retired released u).vehicles = s.vehicles := ends.vehicles.trans p.reported.vehicles
    rw [← carriedOut] at ends after ⊢
    generalize carriedOut tag' freed first retired released u = t at table host ends freedObjects vehicles after ⊢
    refine ⟨fun i v hv => ?_, fun fareNew blockNew told hfare hblock htold => ?_⟩
    · rw [table, look_mapEntries] at hv
      obtain ⟨x, hx, rfl⟩ := Option.map_eq_some_iff.1 hv
      exact ⟨rfl, rfl, rfl, x, hx, rfl, rfl, rfl⟩
    · have fareEq : ∀ v, fareNew v = (decide (first = some .fare) && aheadOf v.heldFare (publishedFare t)) := fun v => by
        rw [Bool.eq_iff_iff, hfare, Bool.and_eq_true, decide_eq_true_iff, aheadOf_iff, p.fare, publishedFare, ← ends.fare]
        cases t.fare <;> simp
      have blockEq : ∀ v, blockNew v = (decide (first = some .block) && aheadOf v.heldBlock (publishedHead t)) := fun v => by
        rw [Bool.eq_iff_iff, hblock, Bool.and_eq_true, decide_eq_true_iff, aheadOf_iff, p.block, publishedHead, ← ends.block]
        cases t.block <;> simp
      have toldEq : ∀ v, told v = republishReports first t v := fun v => by
        rw [htold, fareEq, blockEq, republishReports, aheadReport_gated, aheadReport_gated, currentReport, vehicleNumber_congr vehicles]
        rfl
      refine ⟨?_, failed, handOffReports retired released u, ?_, fun h => ?_, fun j hj h => ?_, retireReports_form _ _,
        freedObjects⟩
      · rw [table]
        simp only [fareEq, blockEq]
        rfl
      · simp only [toldEq]
        exact host
      · rcases p.merge with ⟨_, e⟩ | ⟨j, hj, hu, _⟩
        · exact e
        · rw [ends.merge, hu, hj] at h
          cases h
      · rcases p.merge with ⟨e, _⟩ | ⟨i, hi, _, e⟩
        · rw [ends.merge, e, hj] at h
          cases h
        · rw [hj] at hi
          cases hi
          exact e

end Sys2Proof.Machine

/-! PROOFS. The end of a binding (R101, R105 to R107). -/

namespace Sys2Proof.Machine

/-! ## The roster at the end of a binding (R57, R60, R97, R101, R102) -/

/-- Of two writes to one entry the later one stays. -/
theorem put_put {α : Type} (t : Table α) (k : Nat) (a b : α) : put (put t k a) k b = put t k b := by
  induction t with
  | nil => simp [put]
  | cons p t ih =>
    obtain ⟨i, c⟩ := p
    rw [put]
    by_cases h1 : k < i
    · rw [if_pos h1, put, if_neg (lt_irrefl k), if_pos rfl, put, if_pos h1]
    · by_cases h2 : k = i
      · rw [if_neg h1, if_pos h2, put, if_neg (lt_irrefl k), if_pos rfl, put, if_neg h1, if_pos h2]
      · rw [if_neg h1, if_neg h2, put, if_neg h1, if_neg h2, ih, put, if_neg h1, if_neg h2]

theorem modValidator_of_look {s : State} {i : Nat} {v : Validator} (h : look s.validators i = some v) (f : Validator → Validator) :
    modValidator i f s = { s with validators := put s.validators i (f v) } := by
  unfold modValidator
  rw [h]

theorem modValidator_put (s : State) (i : Nat) (v : Validator) (f : Validator → Validator) :
    modValidator i f { s with validators := put s.validators i v } = { s with validators := put s.validators i (f v) } := by
  rw [modValidator_of_look (look_put_same ..), put_put]

/-- The slot of a validator is given up. -/
def unboundValidator (v : Validator) : Validator := { v with boundSlot := none }

theorem unboundValidator_eq : unboundValidator = fun v => { v with boundSlot := none } := rfl

/-- The validator's entry after held generations are written, and the reports of it. -/
theorem writeHeld_of_look {s : State} {i : Nat} {v : Validator} (h : look s.validators i = some v) (fare block : Option Nat) :
    ∃ ahead delivered, writeHeld i fare block s = ({ s with validators := put s.validators i { v with
      heldFare := fare, heldBlock := block, work := workList s fare block, lag := blockLag s block,
      flags := { v.flags with ahead := ahead } } }, delivered) := by
  unfold writeHeld
  rw [h]
  exact ⟨_, _, rfl⟩

/-- The entry of a validator at the end of its binding. -/
def endedValidator (c : EndCond) (s : State) (v : Validator) (fare block : Option Nat) (ahead : Bool) : Validator :=
  { v with boundSlot := none, heldFare := fare, heldBlock := block,
           work := if c = .done then workList s fare block else v.work, lag := if c = .done then blockLag s block else v.lag,
           flags := { v.flags with rejected := v.flags.rejected || decide (c = .refused ∨ c = .objectRejected), ahead := ahead } }

/-- The held FARE generation after the end of a binding. -/
def heldFareAfter (c : EndCond) (r : ContentObject) (v : Validator) : Option Nat :=
  if c = .done ∧ r.kind = .fareImage then some r.generation else v.heldFare

/-- The held BLOCK generation after the end of a binding. -/
def heldBlockAfter (c : EndCond) (r : ContentObject) (v : Validator) : Option Nat :=
  if c = .done ∧ r.kind ≠ .fareImage then some r.generation else v.heldBlock

section
variable {s : State} {b : Binding} {r : ContentObject} {v : Validator} (hr : look s.objects b.object = some r)
  (hv : look s.validators b.validator = some v)
include hv

theorem settleValidator_not_done {c : EndCond} (hc : c ≠ .done) : (settleValidator b c s).2 = [] ∧
    modValidator b.validator unboundValidator (settleValidator b c s).1 = { s with
      validators := put s.validators b.validator (endedValidator c s v v.heldFare v.heldBlock v.flags.ahead) } := by
  cases c
  case done => exact absurd rfl hc
  case refused =>
    refine ⟨rfl, ?_⟩
    simp only [settleValidator, modValidator_of_look hv, modValidator_put]
    simp [endedValidator, unboundValidator, setRejected]
  case objectRejected =>
    refine ⟨rfl, ?_⟩
    simp only [settleValidator, modValidator_of_look hv, modValidator_put]
    simp [endedValidator, unboundValidator, setRejected]
  all_goals
    refine ⟨rfl, ?_⟩
    simp only [settleValidator, modValidator_of_look hv]
    simp [endedValidator, unboundValidator]

include hr

theorem settleValidator_done : settleValidator b .done s =
    writeHeld b.validator (heldFareAfter .done r v) (heldBlockAfter .done r v) s := by
  unfold settleValidator heldFareAfter heldBlockAfter
  simp only [hr, hv]
  cases r.kind <;> simp

/-- The roster after the end of a binding, with the reports of a delivery. -/
theorem settleValidator_effect (c : EndCond) : ∃ ahead delivered,
    (c ≠ .done → ahead = v.flags.ahead ∧ delivered = []) ∧
    (c = .done → writeHeld b.validator (heldFareAfter c r v) (heldBlockAfter c r v) s =
      ({ s with validators := put s.validators b.validator { v with
          heldFare := heldFareAfter c r v, heldBlock := heldBlockAfter c r v,
          work := workList s (heldFareAfter c r v) (heldBlockAfter c r v), lag := blockLag s (heldBlockAfter c r v),
          flags := { v.flags with ahead := ahead } } }, delivered)) ∧
    (settleValidator b c s).2 = delivered ∧
    modValidator b.validator unboundValidator (settleValidator b c s).1 = { s with
      validators := put s.validators b.validator (endedValidator c s v (heldFareAfter c r v) (heldBlockAfter c r v) ahead) } := by
  by_cases hc : c = .done
  · subst hc
    obtain ⟨ahead, delivered, e⟩ := writeHeld_of_look hv (heldFareAfter .done r v) (heldBlockAfter .done r v)
    refine ⟨ahead, delivered, fun h => absurd rfl h, fun _ => e, ?_, ?_⟩
    · rw [settleValidator_done hr hv, e]
    · rw [settleValidator_done hr hv, e, modValidator_put]
      simp [endedValidator, unboundValidator]
  · obtain ⟨quiet, entry⟩ := settleValidator_not_done (b := b) hv hc
    have fare : heldFareAfter c r v = v.heldFare := if_neg (fun h => hc h.1)
    have block : heldBlockAfter c r v = v.heldBlock := if_neg (fun h => hc h.1)
    rw [fare, block]
    exact ⟨v.flags.ahead, [], fun _ => ⟨rfl, rfl⟩, fun h => absurd h hc, quiet, entry⟩

end

/-! ## The reference of a binding (R19, R20) -/

/-- The last reference on a RETIRING object frees it; another one only lowers the count. -/
theorem dropRef_of_look {s : State} {o : Nat} {r : ContentObject} (wf : tableWf Config.objectEntries 0 s.objects = true)
    (h : look s.objects o = some r) :
    (r.state = .retiring ∧ r.refs ≤ 1 → dropRef o s = submit (.objectRetired o r.kind r.generation)
      { s with objects := erase s.objects o, pool := s.pool ++ r.blocks }) ∧
    (¬(r.state = .retiring ∧ r.refs ≤ 1) → dropRef o s = { s with objects := put s.objects o { r with refs := r.refs - 1 } }) := by
  have released : releaseRef o s = { s with objects := put s.objects o { r with refs := r.refs - 1 } } := by
    unfold releaseRef modObject
    rw [h]
  have last : r.state = .retiring ∧ r.refs - 1 = 0 ↔ r.state = .retiring ∧ r.refs ≤ 1 := by rw [Nat.sub_eq_zero_iff_le]
  unfold dropRef retireIfUnused
  rw [released]
  simp only [look_put_same, last]
  refine ⟨fun hl => ?_, fun hl => if_neg hl⟩
  rw [if_pos hl, freeObject_of_look (look_put_same ..)]
  dsimp only
  rw [erase_put_same _ _ _ _ 0 wf]

/-! ## The end of one binding (R107) -/

theorem modVehicle_of_look {s : State} {i : Nat} {r : Vehicle} (h : look s.vehicles i = some r) (f : Vehicle → Vehicle) :
    modVehicle i f s = { s with vehicles := put s.vehicles i (f r) } := by
  unfold modVehicle
  rw [h]

/-- The state in which a binding's reports are made up: roster, slot and lane have been seen to, its reference is still there. -/
def unboundState (k : SlotIx) (c : EndCond) (u : Bool) (b : Binding) (s : State) : State :=
  modLane b.lane (orphan k) (setSlot k ⟨none, c, u⟩ (unbindRoster b (settleValidator b c s).1))

/-- The state once the reports of an end are sent, and the reference is dropped. -/
def releasedState (k : SlotIx) (c : EndCond) (u : Bool) (b : Binding) (s : State) : State :=
  dropRef b.object (submitAll (settleValidator b c s).2
    (submit (transferReport k b c u (unboundState k c u b s)) (unboundState k c u b s)))

theorem endSlot_bound {k : SlotIx} {c : EndCond} {u : Bool} {s : State} {b : Binding} (h : (s.slot k).binding = some b) :
    endSlot k c u s = retestIdle b.lane { releasedState k c u b s with dispatchDue := true } := by
  unfold endSlot
  rw [h]
  rfl

/-- Of the end of a binding, the objects, the pool, the roster and the host link are those of the dropped reference. -/
theorem endSlot_released {k : SlotIx} {c : EndCond} {u : Bool} {s : State} {b : Binding} (h : (s.slot k).binding = some b) :
    (endSlot k c u s).validators = (releasedState k c u b s).validators ∧ (endSlot k c u s).host = (releasedState k c u b s).host ∧
      (endSlot k c u s).objects = (releasedState k c u b s).objects ∧ (endSlot k c u s).pool = (releasedState k c u b s).pool := by
  rw [endSlot_bound h, retestIdle_rest]
  exact ⟨rfl, rfl, rfl, rfl⟩

section
variable {k : SlotIx} {c : EndCond} {u : Bool} {s : State} {b : Binding} {v : Validator} {veh : Vehicle} {validators : Table Validator}
  (hveh : look s.vehicles b.vehicle = some veh)
  (hval : modValidator b.validator unboundValidator (settleValidator b c s).1 = { s with validators := validators })
include hveh hval

/-- What the state of the reports is apart from slots and lanes. -/
theorem unboundState_eq : unboundState k c u b s = { s with
    validators := validators, vehicles := put s.vehicles b.vehicle { veh with boundSlots := veh.boundSlots - 1 },
    slots := (unboundState k c u b s).slots, lanes := (unboundState k c u b s).lanes } := by
  have roster : unbindRoster b (settleValidator b c s).1 =
      { s with validators := validators, vehicles := put s.vehicles b.vehicle { veh with boundSlots := veh.boundSlots - 1 } } := by
    unfold unbindRoster
    rw [← unboundValidator_eq, hval]
    exact modVehicle_of_look (s := { s with validators := validators }) hveh _
  unfold unboundState
  rw [roster]
  rfl

theorem transferReport_unbound {r : ContentObject} (hr : look s.objects b.object = some r) :
    transferReport k b c u (unboundState k c u b s) = .transferEnded ⟨k, b.validator, b.serial, veh.number, b.lane, b.object,
      r.kind, r.generation, c, u, b.segmentsSent, b.closeAttempts⟩ := by
  have number : vehicleNumber (unboundState k c u b s) (some b.vehicle) = veh.number := by
    rw [unboundState_eq hveh hval, vehicleNumber, Option.bind_some]
    dsimp only
    rw [look_put_same]
  unfold transferReport
  rw [number]
  rw [show (unboundState k c u b s).objects = s.objects by rw [unboundState_eq hveh hval], hr]

/-- What the dropped reference leaves of objects, pool, roster and host link. -/
theorem releasedState_effect {r : ContentObject} (wf : tableWf Config.objectEntries 0 s.objects = true)
    (hr : look s.objects b.object = some r) : (releasedState k c u b s).validators = validators ∧
    (releasedState k c u b s).host = (submitAll (.transferEnded ⟨k, b.validator, b.serial, veh.number, b.lane, b.object,
      r.kind, r.generation, c, u, b.segmentsSent, b.closeAttempts⟩ :: (settleValidator b c s).2 ++
      (if r.state = .retiring ∧ r.refs ≤ 1 then [.objectRetired b.object r.kind r.generation] else [])) s).host ∧
    (releasedState k c u b s).objects = (if r.state = .retiring ∧ r.refs ≤ 1 then erase s.objects b.object
      else put s.objects b.object { r with refs := r.refs - 1 }) ∧
    (releasedState k c u b s).pool = (if r.state = .retiring ∧ r.refs ≤ 1 then s.pool ++ r.blocks else s.pool) := by
  have unbound := unboundState_eq (k := k) (u := u) hveh hval
  unfold releasedState
  rw [transferReport_unbound hveh hval hr]
  generalize ReportBody.transferEnded _ = report
  generalize unboundState k c u b s = s1 at unbound
  have sent := (reported_submit report s1).trans (reported_submitAll (settleValidator b c s).2 (submit report s1))
  obtain ⟨_, pool, objects, _⟩ := Catalogue.mk.inj
    ((submitAll_catalogue (submit report s1) (settleValidator b c s).2).trans (submit_catalogue s1 report))
  generalize submitAll (settleValidator b c s).2 (submit report s1) = w at sent pool objects
  have host : ∀ bs, (submitAll bs w).host = (submitAll (report :: (settleValidator b c s).2 ++ bs) s).host := fun bs => by
    have more := (sent.trans (reported_submitAll bs w)).host
    rw [more]
    exact submitAll_host_congr (by rw [unbound]) (by rw [unbound]) (by rw [unbound]) _
  have valid : w.validators = validators := sent.validators.trans (by rw [unbound])
  have objects' : w.objects = s.objects := objects.trans (by rw [unbound])
  have pool' : w.pool = s.pool := pool.trans (by rw [unbound])
  obtain ⟨last, other⟩ := dropRef_of_look (objects' ▸ wf) (objects' ▸ hr)
  by_cases hl : r.state = .retiring ∧ r.refs ≤ 1
  · rw [last hl, objects', pool']
    simp only [if_pos hl]
    refine ⟨by simpa using valid, ?_, by simp, by simp⟩
    rw [← host]
    exact submit_host_congr (s := w) (t := { w with objects := erase s.objects b.object, pool := s.pool ++ r.blocks }) rfl rfl rfl _
  · rw [other hl, objects']
    simp only [if_neg hl]
    exact ⟨valid, host [], trivial, pool'⟩

end

/-- A transaction in flight of the slot belongs to no slot any more (R106). -/
theorem orphan_own {k : SlotIx} {l : Lane} {tr : Transaction} {co : Bool} (ht : l.transaction = some tr) (ho : tr.owner = .slot k co) :
    (orphan k l).transaction = some { tr with owner := .ended } := by
  unfold orphan
  rw [ht]
  dsimp only
  rw [ho]
  dsimp only
  rw [if_pos rfl]

/-- What one slot's end does, apart from the roster, the reports and its object. -/
theorem endSlot_leaves {k : SlotIx} {c : EndCond} {u : Bool} {s : State} {b : Binding} (h : (s.slot k).binding = some b) :
    (endSlot k c u s).dispatchDue = true ∧ SameLink s (endSlot k c u s) ∧
    ((endSlot k c u s).content = s.content ∧ (endSlot k c u s).fare = s.fare ∧ (endSlot k c u s).block = s.block ∧
      (endSlot k c u s).merge = s.merge ∧ (endSlot k c u s).clock = s.clock ∧ (endSlot k c u s).scanner = s.scanner ∧
      (endSlot k c u s).policy = s.policy ∧ (endSlot k c u s).now = s.now) := by
  have rest := (endSlot_effect k c u s b h).rest
  refine ⟨by rw [rest], (inside_endSlot k c u s).link, ?_⟩
  rw [rest]
  exact ⟨rfl, rfl, rfl, rfl, rfl, rfl, rfl, rfl⟩

/-- Slots that an event ends, in ascending number, by any function that ends the picked ones (R105). -/
theorem endSlotsWhere_foldl {which : Binding → Bool} {c : EndCond} {one : State → SlotIx → State}
    (stay : ∀ t k, (∀ b, (t.slot k).binding = some b → which b = false) → one t k = t)
    (ends : ∀ t k b, (t.slot k).binding = some b → which b = true → one t k = endSlot k c false t) (s : State) :
    endSlotsWhere which c s = allSlots.foldl one s := by
  have same : one = endIf which c := by
    funext t k
    unfold endIf
    split
    · rename_i h
      exact stay t k (fun b e => by rw [h] at e; cases e)
    · rename_i b h
      split
      · rename_i hw
        exact ends t k b h hw
      · rename_i hw
        refine stay t k (fun b' e => ?_)
        rw [h] at e
        cases e
        exact Bool.eq_false_iff.2 hw
  rw [endSlotsWhere_eq, same]

/-- Settles O43: the roster by settleValidator_effect, the reports and the object by releasedState_effect, slots, vehicles and lanes by
endSlot_effect. -/
theorem slotEndOutcome : Obligations.SlotEndOutcome := by
  refine ⟨fun s t k c u b r v veh hb h hr hv hveh ht => ?_, fun which c s => ⟨slotsEnded_endSlotsWhere which c s,
    fun one stay ends => endSlotsWhere_foldl stay ends s⟩, fun _ _ _ => ⟨rfl, rfl⟩, fun _ _ _ => rfl⟩
  subst ht
  have effect := endSlot_effect k c u s b h
  obtain ⟨ahead, delivered, quiet, done, sent, roster⟩ := settleValidator_effect hr hv c
  obtain ⟨validators, host, objects, pool⟩ := releasedState_effect (k := k) (u := u) hveh roster hb.1 hr
  obtain ⟨validators', host', objects', pool'⟩ := endSlot_released (c := c) (u := u) h
  rw [← validators'] at validators
  rw [sent, ← host'] at host
  rw [← objects'] at objects
  rw [← pool'] at pool
  refine ⟨⟨effect.slot_same, effect.slot_other⟩, ⟨_, _, ahead, delivered, validators, rfl, rfl, quiet, done, host⟩, ?_, fun hl => ?_,
    fun hl => ?_, fun j hj => ?_, effect.laneOther, fun tr co ht ho => ?_, endSlot_leaves h⟩
  · rw [effect.vehicles, modVehicle_of_look hveh]
  · rw [if_pos hl] at objects pool
    rw [objects]
    exact ⟨look_erase_same _ _ _ _ hb.1, pool⟩
  · rw [if_neg hl] at objects pool
    exact ⟨objects, pool⟩
  · rw [objects]
    split
    · exact look_erase_other _ _ _ hj
    · exact look_put_other _ _ _ _ hj
  · have lane := congrArg Lane.transaction effect.lane
    rw [Lane.untimed_transaction, Lane.untimed_transaction, orphan_own ht ho] at lane
    exact lane

end Sys2Proof.Machine

/-! PROOFS. The content check of a base and of a delta (R24 to R27, R168, R169, R172). -/

namespace Sys2Proof.Machine

/-! ## The entries of an object's bytes (R169) -/

theorem length_splitRecords (w n : Nat) (bs : List Byte) : (splitRecords w n bs).length = n := by
  induction n generalizing bs with
  | zero => rfl
  | succ n ih => rw [splitRecords, List.length_cons, ih]

theorem getElem?_splitRecords {w n i : Nat} (h : i < n) (bs : List Byte) :
    (splitRecords w n bs)[i]? = some ((bs.drop (w * i)).take w) := by
  induction n generalizing i bs with
  | zero => omega
  | succ n ih =>
    cases i with
    | zero => rfl
    | succ i =>
      rw [splitRecords, List.getElem?_cons_succ, ih (by omega), List.drop_drop, Nat.mul_succ, Nat.add_comm w]

/-- A field that lies inside one record of a text is a field of the text. -/
theorem field_record {w o width : Nat} (h : o + width ≤ w) (start : Nat) (bs : List Byte) :
    field ((bs.drop start).take w) o width = field bs (start + o) width := by
  rw [field, field, List.drop_take, List.take_take, List.drop_drop, Nat.min_eq_left (by omega)]

theorem length_blockEntries (k : ObjKind) (n : Nat) (bs : List Byte) : (blockEntries k n bs).length = n := by
  rw [blockEntries, List.length_map, length_splitRecords]

theorem getElem?_blockEntries (k : ObjKind) {n i : Nat} (h : i < n) (bs : List Byte) :
    (blockEntries k n bs)[i]? = some (blockEntry k ((bs.drop (16 + entryWidth k * i)).take (entryWidth k))) := by
  rw [blockEntries, List.getElem?_map, getElem?_splitRecords h, List.drop_drop, Option.map_some]

theorem blockEntry_of_not_delta {k : ObjKind} (hk : k ≠ .delta) (start : Nat) (bs : List Byte) :
    blockEntry k ((bs.drop start).take (entryWidth k)) = ⟨1, field bs start 8, field bs (start + 8) 1⟩ := by
  cases k with
  | delta => exact absurd rfl hk
  | fareImage | base => simp only [blockEntry, entryWidth, field_record (show 0 + 8 ≤ 9 by decide),
      field_record (show 8 + 1 ≤ 9 by decide), Nat.add_zero]

theorem blockEntry_of_delta (start : Nat) (bs : List Byte) : blockEntry .delta ((bs.drop start).take (entryWidth .delta)) =
    ⟨field bs start 1, field bs (start + 1) 8, field bs (start + 9) 1⟩ := by
  simp only [blockEntry, entryWidth, field_record (show 0 + 1 ≤ 10 by decide), field_record (show 1 + 8 ≤ 10 by decide),
    field_record (show 9 + 1 ≤ 10 by decide), Nat.add_zero]

theorem getElem?_blockEntries_of_not_delta {k : ObjKind} (hk : k ≠ .delta) {n i : Nat} (h : i < n) (bs : List Byte) :
    (blockEntries k n bs)[i]? = some ⟨1, field bs (16 + 9 * i) 8, field bs (16 + 9 * i + 8) 1⟩ := by
  have width : entryWidth k = 9 := by
    cases k with
    | delta => exact absurd rfl hk
    | fareImage | base => rfl
  rw [getElem?_blockEntries k h, blockEntry_of_not_delta hk, width]

theorem getElem?_blockEntries_of_delta {n i : Nat} (h : i < n) (bs : List Byte) : (blockEntries .delta n bs)[i]? =
    some ⟨field bs (16 + 10 * i) 1, field bs (16 + 10 * i + 1) 8, field bs (16 + 10 * i + 9) 1⟩ := by
  rw [getElem?_blockEntries .delta h, blockEntry_of_delta]
  rfl

/-- Every entry of a base adds its card (R24). -/
theorem action_of_mem_baseEntries {n : Nat} {bs : List Byte} {e : BlockEntry} (h : e ∈ blockEntries .base n bs) : e.action = 1 := by
  obtain ⟨_, _, rfl⟩ := List.mem_map.1 h
  rfl

/-! ## The fault of one entry, and of the first faulty one (R27, step 4) -/

/-- The action and reason of an entry that an object can carry (R24, R25). -/
def EntryForm (e : BlockEntry) : Prop := e.action = 1 ∧ 1 ≤ e.reason ∧ e.reason ≤ 15 ∨ e.action = 2 ∧ e.reason = 0

/-- The card that stands before position `i` of a list of entries with `before` in front of it. -/
def cardBefore (before : Option Nat) (es : List BlockEntry) : Nat → Option Nat
  | 0 => before
  | i + 1 => es[i]?.map BlockEntry.card

/-- The entry rises above the card before it. -/
def Rises (before : Option Nat) (e : BlockEntry) : Prop := ∀ c, before = some c → c < e.card

theorem entryFault_action {e : BlockEntry} (before : Option Nat) (h1 : e.action ≠ 1) (h2 : e.action ≠ 2) :
    entryFault before e = some .action := if_pos ⟨h1, h2⟩

theorem entryFault_reason {e : BlockEntry} (before : Option Nat) (ha : e.action = 1 ∨ e.action = 2) (hf : ¬EntryForm e) :
    entryFault before e = some .reason := by
  unfold EntryForm at hf
  unfold entryFault
  rw [if_neg (by omega)]
  by_cases h : e.action = 1
  · rw [if_pos (by omega)]
  · rw [if_neg (by omega), if_pos (by omega)]

/-- Of an entry in form, the order alone is left to test. -/
theorem entryFault_of_form {e : BlockEntry} (before : Option Nat) (hf : EntryForm e) :
    (Rises before e → entryFault before e = none) ∧ (¬Rises before e → entryFault before e = some .order) := by
  unfold EntryForm at hf
  unfold entryFault Rises
  rw [if_neg (by omega), if_neg (by omega), if_neg (by omega)]
  cases before <;> simp

theorem entryFault_eq_none {before : Option Nat} {e : BlockEntry} :
    entryFault before e = none ↔ EntryForm e ∧ Rises before e := by
  constructor
  · intro h
    by_cases hf : EntryForm e
    · by_cases hr : Rises before e
      · exact ⟨hf, hr⟩
      · cases ((entryFault_of_form before hf).2 hr).symm.trans h
    · by_cases ha : e.action = 1 ∨ e.action = 2
      · cases (entryFault_reason before ha hf).symm.trans h
      · obtain ⟨h1, h2⟩ := not_or.1 ha
        cases (entryFault_action before h1 h2).symm.trans h
  · rintro ⟨hf, hr⟩
    exact (entryFault_of_form before hf).1 hr

theorem cardBefore_cons_succ (before : Option Nat) (e : BlockEntry) (es : List BlockEntry) (i : Nat) :
    cardBefore before (e :: es) (i + 1) = cardBefore (some e.card) es i := by
  cases i <;> rfl

/-- The entries before position `n` pass, so the check comes to that position with the card before it. -/
theorem firstEntryFault_at {es : List BlockEntry} {n : Nat} {e : BlockEntry} {f : ContentFault} (he : es[n]? = some e) :
    ∀ (i : Nat) (before : Option Nat),
    (∀ j x, j < n → es[j]? = some x → entryFault (cardBefore before es j) x = none) →
    entryFault (cardBefore before es n) e = some f → firstEntryFault i before es = some (f, i + n) := by
  induction es generalizing n with
  | nil => cases he
  | cons a es ih =>
    intro i before passed fault
    cases n with
    | zero =>
      cases he
      rw [firstEntryFault, show entryFault before e = some f from fault]
      rfl
    | succ n =>
      rw [firstEntryFault, show entryFault before a = none from passed 0 a (by omega) rfl]
      dsimp only
      rw [ih he (i + 1) (some a.card) (fun j x hj hx => ?_) (by rwa [cardBefore_cons_succ] at fault), Nat.add_assoc, Nat.add_comm 1]
      rw [← cardBefore_cons_succ before]
      exact passed (j + 1) x (by omega) hx

theorem firstEntryFault_eq_none {es : List BlockEntry} : ∀ (i : Nat) (before : Option Nat), firstEntryFault i before es = none ↔
    ∀ j x, es[j]? = some x → entryFault (cardBefore before es j) x = none := by
  induction es with
  | nil => simp [firstEntryFault]
  | cons a es ih =>
    intro i before
    rw [firstEntryFault]
    cases ha : entryFault before a with
    | some f =>
      refine iff_of_false nofun (fun passed => ?_)
      cases ha.symm.trans (passed 0 a rfl)
    | none =>
      dsimp only
      rw [ih]
      constructor
      · intro passed j x hx
        cases j with
        | zero => cases hx; exact ha
        | succ j => rw [cardBefore_cons_succ]; exact passed j x hx
      · intro passed j x hx
        rw [← cardBefore_cons_succ before]
        exact passed (j + 1) x hx

/-- Each entry rises above the one before it exactly when the cards rise along the whole list. -/
theorem pairwise_card_iff (es : List BlockEntry) : es.Pairwise (fun a b => a.card < b.card) ↔
    ∀ j x, es[j]? = some x → Rises (cardBefore none es j) x := by
  rw [← List.pairwise_map (f := BlockEntry.card) (R := (· < ·)), ← List.isChain_iff_pairwise, List.isChain_iff_getElem]
  constructor
  · intro chain j x hx c hc
    cases j with
    | zero => cases hc
    | succ j =>
      obtain ⟨hj, rfl⟩ := List.getElem?_eq_some_iff.1 hx
      obtain ⟨p, hp, rfl⟩ := Option.map_eq_some_iff.1 hc
      obtain ⟨hi, rfl⟩ := List.getElem?_eq_some_iff.1 hp
      have rise := chain j (by rwa [List.length_map])
      rwa [List.getElem_map, List.getElem_map] at rise
  · intro rises j hj
    rw [List.length_map] at hj
    rw [List.getElem_map, List.getElem_map]
    exact rises (j + 1) _ (List.getElem?_eq_getElem hj) _ (by rw [cardBefore, List.getElem?_eq_getElem (by omega)]; rfl)

/-! ## The content check (R27) -/

section

variable {k : ObjKind} {g size w : Nat} {bs : List Byte}

/-- The length is judged by the width of the kind's entries. -/
theorem contentFault_length (hw : entryWidth k = w) (h : size < 16 ∨ (size - 16) % w ≠ 0) :
    contentFault k g size bs = some (.length, 0) := by
  subst hw
  exact if_pos h

theorem contentFault_header (hw : entryWidth k = w) (h1 : 16 ≤ size) (h2 : (size - 16) % w = 0)
    (h : field bs 0 4 ≠ 0x5A3C0001 ∨ field bs 4 2 ≠ k.code ∨ field bs 6 4 ≠ g) :
    contentFault k g size bs = some (.header, 0) := by
  subst hw
  unfold contentFault
  dsimp only
  rw [if_neg (by omega)]
  exact if_pos h

/-- Past the length and the header, the counts and the entries decide. -/
theorem contentFault_of_header (hw : entryWidth k = w) (h1 : 16 ≤ size) (h2 : (size - 16) % w = 0)
    (h3 : field bs 0 4 = 0x5A3C0001) (h4 : field bs 4 2 = k.code) (h5 : field bs 6 4 = g) :
    contentFault k g size bs =
      if field bs 10 4 ≠ (size - 16) / w ∨ (k = .base ∧ field bs 14 2 ≠ 0) then some (.count, 0)
      else (firstEntryFault 0 none (blockEntries k ((size - 16) / w) bs)).or
        (if k = .delta ∧ field bs 14 2 ≠ addEntries (blockEntries k ((size - 16) / w) bs) then some (.count, 0) else none) := by
  subst hw
  unfold contentFault
  dsimp only
  rw [if_neg (by omega), if_neg (by rw [h3, h4, h5]; simp [formatMark])]
  cases firstEntryFault 0 none (blockEntries k ((size - 16) / entryWidth k) bs) <;> rfl

end

theorem contentFault_base_eq_none (g size : Nat) (bs : List Byte) : contentFault .base g size bs = none ↔
    16 ≤ size ∧ (size - 16) % 9 = 0 ∧ field bs 0 4 = 0x5A3C0001 ∧ field bs 4 2 = 2 ∧ field bs 6 4 = g ∧
      field bs 10 4 = (size - 16) / 9 ∧ field bs 14 2 = 0 ∧
      firstEntryFault 0 none (blockEntries .base ((size - 16) / 9) bs) = none := by
  have hw : entryWidth .base = 9 := rfl
  by_cases hl : size < 16 ∨ (size - 16) % 9 ≠ 0
  · rw [contentFault_length hw hl]
    exact iff_of_false nofun (by omega)
  obtain ⟨h1, h2⟩ : 16 ≤ size ∧ (size - 16) % 9 = 0 := by omega
  by_cases hh : field bs 0 4 ≠ 0x5A3C0001 ∨ field bs 4 2 ≠ ObjKind.base.code ∨ field bs 6 4 ≠ g
  · rw [contentFault_header hw h1 h2 hh]
    refine iff_of_false nofun ?_
    rintro ⟨_, _, mark, code, gen, _⟩
    exact hh.elim (· mark) (Or.elim · (· code) (· gen))
  obtain ⟨h3, h4, h5⟩ : field bs 0 4 = 0x5A3C0001 ∧ field bs 4 2 = ObjKind.base.code ∧ field bs 6 4 = g := by
    simpa only [not_or, not_not] using hh
  rw [contentFault_of_header hw h1 h2 h3 h4 h5]
  by_cases counts : field bs 10 4 = (size - 16) / 9 ∧ field bs 14 2 = 0
  · simp [h1, h2, h3, h4, h5, counts, ObjKind.code]
  · rw [if_pos ((not_and_or.1 counts).imp_right fun h => ⟨rfl, h⟩)]
    exact iff_of_false nofun (fun ⟨_, _, _, _, _, count, zero, _⟩ => counts ⟨count, zero⟩)

/-- A base has no faulty entry exactly when its reasons are in range and its cards rise. -/
theorem firstEntryFault_base (n : Nat) (bs : List Byte) : firstEntryFault 0 none (blockEntries .base n bs) = none ↔
    (∀ e ∈ blockEntries .base n bs, 1 ≤ e.reason ∧ e.reason ≤ 15) ∧
      (blockEntries .base n bs).Pairwise (fun a b => a.card < b.card) := by
  have form : ∀ e ∈ blockEntries .base n bs, EntryForm e ↔ 1 ≤ e.reason ∧ e.reason ≤ 15 := fun e he => by
    simp [EntryForm, action_of_mem_baseEntries he]
  rw [firstEntryFault_eq_none, pairwise_card_iff]
  simp only [entryFault_eq_none]
  refine ⟨fun h => ⟨fun e he => ?_, fun j e hj => (h j e hj).2⟩, fun h j e hj => ?_⟩
  · obtain ⟨j, hj⟩ := List.mem_iff_getElem?.1 he
    exact (form e he).1 (h j e hj).1
  · have he := List.mem_of_getElem? hj
    exact ⟨(form e he).2 (h.1 e he), h.2 j e hj⟩

theorem rises_cardBefore_iff (es : List BlockEntry) (i : Nat) (e : BlockEntry) :
    Rises (cardBefore none es i) e ↔ ∀ p, 0 < i → es[i - 1]? = some p → p.card < e.card := by
  cases i with
  | zero => simp [cardBefore, Rises]
  | succ i => simp [cardBefore, Rises]

/-- Settles O17: the tests of contentFault in their order, the entries by firstEntryFault_at and firstEntryFault_eq_none. -/
theorem baseContentCheck : Obligations.BaseContentCheck := by
  refine ⟨?base, fun k n bs => ⟨length_blockEntries k n bs, fun i hi => ⟨fun hk => getElem?_blockEntries_of_not_delta hk hi bs, ?_⟩⟩,
    ?order, rfl⟩
  case base =>
    rintro g size bs es rfl
    rw [contentFault_base_eq_none, firstEntryFault_base]
  · rintro rfl
    exact getElem?_blockEntries_of_delta hi bs
  case order =>
    intro k g size w n bs es form after_ hk hn hes hform hafter
    obtain rfl : form = EntryForm := funext fun e => propext (hform e)
    obtain rfl : after_ = fun i e => Rises (cardBefore none es i) e :=
      funext fun i => funext fun e => propext ((hafter i e).trans (rises_cardBefore_iff es i e).symm)
    have hw : entryWidth k = w := by rcases hk with ⟨rfl, rfl⟩ | ⟨rfl, rfl⟩ <;> rfl
    refine ⟨contentFault_length hw, fun h1 h2 => ⟨contentFault_header hw h1 h2, fun h3 h4 h5 => ?_⟩⟩
    rw [contentFault_of_header hw h1 h2 h3 h4 h5, ← hn, ← hes]
    refine ⟨fun hc => if_pos hc, fun hc hz => ?_⟩
    rw [if_neg (by rw [not_or]; exact ⟨not_not.2 hc, fun h => h.2 (hz h.1)⟩)]
    refine ⟨fun i e he passed => ?_, fun passed => ?_⟩
    · have fault : ∀ f, entryFault (cardBefore none es i) e = some f → firstEntryFault 0 none es = some (f, i) := fun f hf => by
        rw [firstEntryFault_at he 0 none (fun j x hj hx => entryFault_eq_none.2 (passed j x hj hx)) hf, Nat.zero_add]
      refine ⟨fun a1 a2 => ?_, fun ha hf => ?_, fun hf hr => ?_⟩
      · rw [fault _ (entryFault_action _ a1 a2)]
        rfl
      · rw [fault _ (entryFault_reason _ ha hf)]
        rfl
      · rw [fault _ ((entryFault_of_form _ hf).2 hr)]
        rfl
    · have clean : firstEntryFault 0 none es = none :=
        (firstEntryFault_eq_none 0 none).2 (fun j x hx => entryFault_eq_none.2 (passed j x hx))
      have adds : addEntries es = es.countP (fun e => decide (e.action = 1)) := rfl
      rw [clean, Option.none_or, adds]
      exact ⟨fun hd ha => if_pos ⟨hd, ha⟩, fun _ ha => if_neg (fun h => h.2 ha)⟩

end Sys2Proof.Machine

/-! PROOFS. Blocklist states: a delta applied, the state of a base, and the target state of a merge (R23, R25, R28, R33). -/

namespace Sys2Proof.Machine

/-! ## One entry applied (R25) -/

theorem erase_of_look_none {α : Type} {t : Table α} {k : Nat} (h : look t k = none) : erase t k = t := by
  induction t with
  | nil => rfl
  | cons p t ih =>
    obtain ⟨i, a⟩ := p
    rw [look] at h
    split_ifs at h with hi
    rw [erase, if_neg hi, ih h]

/-- A REMOVE is void when the blocklist state does not have its card (R25, R33). -/
def isVoid (t : Blocklist) (e : BlockEntry) : Bool := decide (e.action = 2) && (look t e.card).isNone

theorem applyEntry_add {e : BlockEntry} (h : e.action = 1) (acc : Blocklist × List Nat) :
    applyEntry acc e = (put acc.1 e.card e.reason, acc.2) := if_pos h

/-- A void REMOVE leaves the state as it is, as taking out an absent card does. -/
theorem applyEntry_remove {e : BlockEntry} (h : e.action = 2) (acc : Blocklist × List Nat) :
    applyEntry acc e = (erase acc.1 e.card, if isVoid acc.1 e then e.card :: acc.2 else acc.2) := by
  unfold applyEntry isVoid
  rw [if_neg (by omega)]
  cases hl : look acc.1 e.card with
  | none => simp [h, erase_of_look_none hl]
  | some a => simp

/-- What one entry makes of a blocklist state `t` and of the void removals `v` met before it. -/
structure EntryApplied (t : Blocklist) (v : List Nat) (e : BlockEntry) (acc : Blocklist × List Nat) : Prop where
  wf : tableWf (2 ^ 64) 0 acc.1 = true
  named : look acc.1 e.card = if e.action = 1 then some e.reason else none
  others : ∀ c, c ≠ e.card → look acc.1 c = look t c
  voids : acc.2.length = v.length + if isVoid t e then 1 else 0

theorem entryApplied_applyEntry {t : Blocklist} (v : List Nat) {e : BlockEntry} (wf : tableWf (2 ^ 64) 0 t = true)
    (hc : e.card < 2 ^ 64) (ha : e.action = 1 ∨ e.action = 2) : EntryApplied t v e (applyEntry (t, v) e) := by
  rcases ha with ha | ha
  · rw [applyEntry_add ha]
    exact {
      wf := tableWf_put _ t e.card e.reason 0 (Nat.zero_le _) hc wf
      named := by rw [look_put_same, if_pos ha]
      others := fun c h => look_put_other t e.card c e.reason h
      voids := by simp [isVoid, ha] }
  · rw [applyEntry_remove ha]
    exact {
      wf := tableWf_erase _ t e.card 0 wf
      named := by rw [look_erase_same _ t e.card 0 wf, if_neg (by omega)]
      others := fun c h => look_erase_other t e.card c h
      voids := by dsimp only; split <;> rfl }

/-! ## A delta applied (R25, R33) -/

/-- What the entries of a delta, in order, make of a blocklist state `t` and of the void removals `v` met before them. -/
structure EntriesApplied (t : Blocklist) (v : List Nat) (es : List BlockEntry) (acc : Blocklist × List Nat) : Prop where
  wf : tableWf (2 ^ 64) 0 acc.1 = true
  named : ∀ e ∈ es, look acc.1 e.card = if e.action = 1 then some e.reason else none
  others : ∀ c, (∀ e ∈ es, e.card ≠ c) → look acc.1 c = look t c
  voids : acc.2.length = v.length + es.countP (isVoid t)

/-- The entries name different cards, so each finds its card as the state had it and leaves those of the others alone. -/
theorem entriesApplied_applyDelta {es : List BlockEntry} (rising : es.Pairwise (fun a b => a.card < b.card))
    (valid : ∀ e ∈ es, e.card < 2 ^ 64 ∧ (e.action = 1 ∨ e.action = 2)) :
    ∀ (t : Blocklist) (v : List Nat), tableWf (2 ^ 64) 0 t = true → EntriesApplied t v es (applyDelta (t, v) es) := by
  induction es with
  | nil => exact fun t v wf => ⟨wf, nofun, fun _ _ => rfl, rfl⟩
  | cons a es ih =>
    intro t v wf
    obtain ⟨above, rising⟩ := List.pairwise_cons.1 rising
    obtain ⟨hc, ha⟩ := valid a List.mem_cons_self
    have one := entryApplied_applyEntry v wf hc ha
    have rest := ih rising (fun e he => valid e (List.mem_cons_of_mem a he)) _ (applyEntry (t, v) a).2 one.wf
    refine ⟨rest.wf, fun e he => ?_, fun c hn => ?_, ?_⟩
    · rcases List.mem_cons.1 he with rfl | he
      · exact (rest.others e.card (fun x hx => (above x hx).ne')).trans one.named
      · exact rest.named e he
    · obtain ⟨first, later⟩ := List.forall_mem_cons.1 hn
      exact (rest.others c later).trans (one.others c first.symm)
    · have same : es.countP (isVoid (applyEntry (t, v) a).1) = es.countP (isVoid t) :=
        List.countP_congr fun e he => by rw [isVoid, one.others e.card (above e he).ne', isVoid]
      calc (applyDelta (t, v) (a :: es)).2.length
        _ = (applyEntry (t, v) a).2.length + es.countP (isVoid (applyEntry (t, v) a).1) := rest.voids
        _ = v.length + (a :: es).countP (isVoid t) := by rw [one.voids, same, List.countP_cons]; omega

/-! ## The state of a base (R23, R24) -/

/-- An ADD of the card and reason of an entry. -/
def asAdd (e : BlockEntry) : BlockEntry := ⟨1, e.card, e.reason⟩

/-- A base states what its entries, all added, make of the empty blocklist. -/
theorem ofBase_eq (es : List BlockEntry) : ofBase es = (applyDelta ([], []) (es.map asAdd)).1 := by
  have each : ∀ acc : Blocklist × List Nat, es.foldl (fun t e => put t e.card e.reason) acc.1 = (applyDelta acc (es.map asAdd)).1 := by
    induction es with
    | nil => exact fun _ => rfl
    | cons e es ih => exact fun acc => ih (put acc.1 e.card e.reason, acc.2)
  exact each ([], [])

theorem ofBase_states {es : List BlockEntry} (rising : es.Pairwise (fun a b => a.card < b.card)) (valid : ∀ e ∈ es, e.card < 2 ^ 64) :
    tableWf (2 ^ 64) 0 (ofBase es) = true ∧ (∀ e ∈ es, look (ofBase es) e.card = some e.reason) ∧
      ∀ c, (∀ e ∈ es, e.card ≠ c) → look (ofBase es) c = none := by
  have adds : ∀ e ∈ es.map asAdd, e.card < 2 ^ 64 ∧ (e.action = 1 ∨ e.action = 2) :=
    List.forall_mem_map.2 fun e he => ⟨valid e he, Or.inl rfl⟩
  have applied := entriesApplied_applyDelta (List.pairwise_map.2 rising : (es.map asAdd).Pairwise _) adds [] [] rfl
  rw [ofBase_eq]
  exact ⟨applied.wf, List.forall_mem_map.1 applied.named, fun c hn => applied.others c (List.forall_mem_map.2 hn)⟩

/-! ## The target state of a merge (R28, R33) -/

theorem objectsAt_eq {s : State} {ids : List Nat} {rs : List ContentObject} (h : ids.map (look s.objects) = rs.map some) :
    objectsAt s ids = rs := by
  calc objectsAt s ids
    _ = (ids.map (look s.objects)).filterMap id := by rw [List.filterMap_map]; rfl
    _ = rs := by rw [h, List.filterMap_map, Function.id_comp, List.filterMap_some]

theorem mergedState_of_sources {s : State} {j : MergeJob} {base : ContentObject} {deltas : List ContentObject}
    (h : j.sources.map (look s.objects) = (base :: deltas).map some) : mergedState s j =
      deltas.foldl (fun acc d => applyDelta acc (storedEntries s.content d)) (ofBase (storedEntries s.content base), []) := by
  rw [mergedState, objectsAt_eq h]

/-- Settles O24: a delta by induction over its entries, a base as entries that are all added. -/
theorem deltaApplication : Obligations.DeltaApplication := by
  refine ⟨fun t v es wf rising valid => ?_, fun es rising valid => ofBase_states rising valid, fun m r n hn => ?_,
    fun s j b ids base deltas hj hb hd => ?_⟩
  · obtain ⟨wf, named, others, voids⟩ := entriesApplied_applyDelta rising valid t v wf
    exact ⟨wf, named, others, voids⟩
  · rw [storedEntries, hn, Option.getD_some]
  · exact mergedState_of_sources (by rw [hj, List.map_cons, List.map_cons, hb, hd])

end Sys2Proof.Machine

/-! PROOFS. The merge engine: MERGE, MERGE_PROGRESS, MERGE_COMPLETE and MERGE_TOO_LARGE (R29 to R35, R38). -/

namespace Sys2Proof.Machine

/-! ## MERGE (R30, R31) -/

theorem sum_objectsAt (s : State) (f : ContentObject → Nat) (ids : List Nat) :
    ((objectsAt s ids).map f).sum = (ids.map (fun d => ((look s.objects d).map f).getD 0)).sum := by
  induction ids with
  | nil => rfl
  | cons d ids ih =>
    rw [objectsAt] at ih ⊢
    cases hd : look s.objects d with
    | none => simp [hd, ih]
    | some r => simp [hd, ih]

theorem worstCaseSize_eq {s : State} {b : BlockRecord} {base : ContentObject} (h : look s.objects b.baseObject = some base) :
    worstCaseSize s b =
      min (base.declaredSize + 9 * (b.chain.map (fun d => ((look s.objects d).bind ContentObject.addCount).getD 0)).sum) 3145728 := by
  have adds : ∀ d, ((look s.objects d).map (fun r => r.addCount.getD 0)).getD 0 = ((look s.objects d).bind ContentObject.addCount).getD 0 :=
    fun d => by cases look s.objects d <;> rfl
  simp only [worstCaseSize, h, sum_objectsAt, adds, Config.maxBaseBytes]

theorem startMerge_without_delta {s : State} (h : ∀ b, s.block = some b → b.head = b.base) (tag : Byte) :
    startMerge tag s = replied 0x88 tag .wrongState [] s := by
  cases hb : s.block with
  | none => rw [startMerge, hb]; rfl
  | some b =>
    rw [startMerge, hb]
    exact if_pos (h b hb)

section

variable {s : State} {b : BlockRecord} (hb : s.block = some b) (hd : b.head ≠ b.base)

include hb hd

theorem startMerge_running (hm : s.merge ≠ none) (tag : Byte) : startMerge tag s = replied 0x88 tag .busy [] s := by
  simp only [startMerge, hb, if_neg hd, if_pos (Option.isSome_iff_ne_none.2 hm)]
  rfl

/-- No place, no entry or too few blocks for the worst case: the three are one refusal (R30). -/
theorem startMerge_full (hm : s.merge = none) (full : objectOf s .base .staged ≠ none ∨ unusedObject s = none ∨
    s.pool.length < (worstCaseSize s b + 1023) / 1024) (tag : Byte) : startMerge tag s = replied 0x88 tag .noSpace [] s := by
  rw [startMerge, hb]
  dsimp only
  rw [if_neg hd, if_neg (by simp [hm])]
  split
  case h_1 id hs hu =>
    have short : s.pool.length < (worstCaseSize s b + 1023) / 1024 := (full.resolve_left (by simp [hs])).resolve_left (by simp [hu])
    exact if_neg (mt (poolHas_iff ..).1 (not_le.2 short))
  case h_2 => rfl

theorem startMerge_starts (hm : s.merge = none) {id : Nat} (hs : objectOf s .base .staged = none) (hu : unusedObject s = some id)
    (hp : (worstCaseSize s b + 1023) / 1024 ≤ s.pool.length) (tag : Byte) : startMerge tag s =
      replied 0x88 tag .ok (leBytes 1 id ++ leBytes 2 b.head ++ leBytes 2 ((worstCaseSize s b + 1023) / 1024))
        (mergeStarted ⟨id, b.head, b.baseObject :: b.chain, 0, 0⟩ ((worstCaseSize s b + 1023) / 1024)
          (fun bl => ⟨.base, b.head, worstCaseSize s b, 0, 0, bl, none, none, .building, 0, none⟩) s) := by
  rw [startMerge, hb]
  dsimp only
  rw [if_neg hd, if_neg (by simp [hm]), hs, hu]
  exact if_pos ((poolHas_iff ..).2 hp)

end

/-- Settles O25: the outcomes of startMerge, the estimate by worstCaseSize_eq. -/
theorem mergeStart : Obligations.MergeStart := by
  intro s tag hq
  have e : exec .merge s = .next (startMerge tag s) := by
    simp only [exec, execMerge, show s.host.processor = .busy tag .merge from hq]
  rw [e]
  refine ⟨fun h => by rw [startMerge_without_delta h], fun b hb hd => ⟨fun hm => by rw [startMerge_running hb hd hm], ?_⟩⟩
  rintro base hm hbase size _ hsize rfl
  obtain rfl : size = worstCaseSize s b := hsize.trans (worstCaseSize_eq hbase).symm
  refine ⟨fun full => by rw [startMerge_full hb hd hm full], fun id hs hu hp => ?_⟩
  rw [startMerge_starts hb hd hm hs hu hp]
  rfl

/-! ## MERGE_PROGRESS (R32, R33) -/

/-- Bytes that lie in the blocks of an object are written. -/
theorem writeObject_of_room {r : ContentObject} (range : ∀ b ∈ r.blocks, b < 4096) (bs : List Byte) : ∀ (n : Nat) (m : Memory),
    n + bs.length ≤ 1024 * r.blocks.length → ∃ c, writeObject r n bs m = some c := by
  induction bs with
  | nil => exact fun _ m _ => ⟨m, rfl⟩
  | cons b bs ih =>
    intro n m room
    rw [List.length_cons] at room
    have hi : n / 1024 < r.blocks.length := by omega
    have address : byteAddress r n = some (r.blocks[n / 1024] * 1024 + n % 1024) :=
      (byteAddress_eq_some ..).2 ⟨_, List.getElem?_eq_getElem hi, range _ (List.getElem_mem hi), rfl⟩
    rw [writeObject_cons address]
    exact ih (n + 1) _ (by omega)

theorem leBytes_length (n v : Nat) : (leBytes n v).length = n := by
  induction n generalizing v with
  | zero => rfl
  | succ n ih => rw [leBytes, List.length_cons, ih]

theorem length_baseEntryBytes (p : Nat × Nat) : (baseEntryBytes p).length = 9 := by
  rw [baseEntryBytes, List.length_append, leBytes_length, leBytes_length]

/-- The next `n` entries take 9 bytes each. -/
theorem length_entryBytes {t : Blocklist} {written n : Nat} (h : written + n ≤ t.length) :
    (((t.drop written).take n).flatMap baseEntryBytes).length = 9 * n := by
  simp only [List.length_flatMap, length_baseEntryBytes, List.map_const', List.sum_replicate, List.length_take, List.length_drop]
  rw [Nat.min_eq_left (by omega), smul_eq_mul, Nat.mul_comm]

theorem voidsUpTo_of_entry {m : Blocklist × List Nat} {n : Nat} {e : Nat × Nat} (hn : 0 < n) (h : m.1[n - 1]? = some e) :
    voidsUpTo m n = m.2.countP (fun card => decide (card ≤ e.1)) := by
  obtain ⟨hl, _⟩ := List.getElem?_eq_some_iff.1 h
  have last : (m.1.take n).getLast? = some e := by
    rw [List.getLast?_eq_getElem?, List.length_take, Nat.min_eq_left (by omega), List.getElem?_take, if_pos (by omega), h]
  rw [voidsUpTo, last]

theorem modObject_of_look {s : State} {o : Nat} {r : ContentObject} (h : look s.objects o = some r)
    (f : ContentObject → ContentObject) : modObject o f s = { s with objects := put s.objects o (f r) } := by
  rw [modObject, h]

/-- MERGE_PROGRESS at a point where `n` entries are left to write, once their bytes are in content memory. -/
theorem exec_mergeProgress {s : State} {j : MergeJob} {r : ContentObject} {n : Nat} {c : Memory} (hj : s.merge = some j)
    (hr : look s.objects j.result = some r) (hn : 0 < n) (left : j.entriesWritten + n ≤ (mergedState s j).1.length)
    (cap : j.entriesWritten + n ≤ 349523)
    (hc : writeObject r (16 + 9 * j.entriesWritten)
      ((((mergedState s j).1.drop j.entriesWritten).take n).flatMap baseEntryBytes) s.content = some c) :
    exec (.mergeProgress n) s = .next (mergeProgressed j r n (voidsUpTo (mergedState s j) (j.entriesWritten + n)) c s) := by
  have point : 0 < n ∧ j.entriesWritten + n ≤ (mergedState s j).1.length ∧ j.entriesWritten + n ≤ Config.maxBaseEntries :=
    ⟨hn, left, cap⟩
  simp only [exec, execMergeProgress, hj, hr, if_pos point, hc, modObject_of_look hr]
  rfl

/-- Settles O26: the entries are written by writeObject_of_room, and only their bytes by readByte_writeObject_other. -/
theorem mergeProgressWritesEntries : Obligations.MergeProgressWritesEntries := by
  rintro s j r n _ hj hr rfl hn left cap range room
  have length := length_entryBytes left
  obtain ⟨c, hc⟩ := writeObject_of_room range (((mergedState s j).1.drop j.entriesWritten).take n |>.flatMap baseEntryBytes)
    (16 + 9 * j.entriesWritten) s.content (by omega)
  refine ⟨c, _, exec_mergeProgress hj hr hn left cap hc, hc, fun e he => voidsUpTo_of_entry (by omega) he, fun a ha => ?_⟩
  exact readByte_writeObject_other r _ a _ s.content c hc (by rwa [length])

/-! ## The ends of a merge (R34, R35, R38) -/

theorem exec_mergeTooLarge {s : State} {j : MergeJob} (hj : s.merge = some j) : exec .mergeTooLarge s =
    if j.entriesWritten = 349523 ∧ 349523 < (mergedState s j).1.length then
      .next (retireSources j.sources (failMerge j .tooLarge j.entriesWritten s)) else .next s := by
  simp only [exec, execMergeTooLarge, hj]
  rfl

/-- A merge that fails: its result is freed, the references are dropped, the engine is IDLE, and the report follows (R34, R35). -/
theorem failMerge_of_look {s : State} {j : MergeJob} {r : ContentObject} (hr : look s.objects j.result = some r)
    (reason : MergeFailure) (written : Nat) : failMerge j reason written s =
      submit (.mergeFailed j.result j.target reason written) { j.sources.foldl (fun t d => releaseRef d t)
        { s with objects := erase s.objects j.result, pool := s.pool ++ r.blocks } with merge := none } := by
  rw [failMerge, freeObject_of_look hr]
  rfl

theorem exec_mergeComplete_early {s : State} {j : MergeJob} {r : ContentObject} (hj : s.merge = some j)
    (hr : look s.objects j.result = some r) (early : j.entriesWritten ≠ (mergedState s j).1.length ∨ 349523 < j.entriesWritten) :
    exec .mergeComplete s = .next s := by
  have stays : ¬(j.entriesWritten = (mergedState s j).1.length ∧ j.entriesWritten ≤ Config.maxBaseEntries) := by
    rw [Config.maxBaseEntries]
    omega
  simp only [exec, execMergeComplete, hj, hr, if_neg stays]

theorem exec_mergeComplete {s : State} {j : MergeJob} {r : ContentObject} {c : Memory} (hj : s.merge = some j)
    (hr : look s.objects j.result = some r) (all : j.entriesWritten = (mergedState s j).1.length) (cap : j.entriesWritten ≤ 349523)
    (hc : writeObject r 0 (baseHeader j.target j.entriesWritten) s.content = some c) : exec .mergeComplete s =
      .next (retireSources j.sources (settleMerge j j.entriesWritten (mergedState s j).2.length (mergeFinished j r c s))) := by
  have point : j.entriesWritten = (mergedState s j).1.length ∧ j.entriesWritten ≤ Config.maxBaseEntries := ⟨all, cap⟩
  simp only [exec, execMergeComplete, hj, hr, if_pos point, hc, mergeFinished]

theorem settleMerge_staged {j : MergeJob} {n voids : Nat} {s : State} (h : objectOf s .base .staged = none) :
    settleMerge j n voids s = submit (.mergeDone j.result j.target n (16 + 9 * n) voids)
      (releaseSources j (modObject j.result (fun r => { r with state := .staged }) s)) := by
  rw [settleMerge, h]

theorem settleMerge_superseded {j : MergeJob} {n voids : Nat} {s : State} (h : objectOf s .base .staged ≠ none) :
    settleMerge j n voids s = failMerge j .superseded n s := by
  obtain ⟨o, ho⟩ := Option.ne_none_iff_exists'.1 h
  rw [settleMerge, ho]

theorem length_baseHeader (generation entries : Nat) : (baseHeader generation entries).length = 16 := by
  simp only [baseHeader, List.length_append, leBytes_length]

theorem retireIfUnused_retiring {s : State} {o : Nat} {r : ContentObject} (h : look s.objects o = some r) (hs : r.state = .retiring)
    (hz : r.refs = 0) : retireIfUnused o s = submit (.objectRetired o r.kind r.generation)
      { s with objects := erase s.objects o, pool := s.pool ++ r.blocks } := by
  simp only [retireIfUnused, h, freeObject_of_look h]
  rw [if_pos ⟨hs, hz⟩]

theorem retireIfUnused_stays {s : State} {o : Nat} {r : ContentObject} (h : look s.objects o = some r)
    (hs : r.state ≠ .retiring ∨ r.refs ≠ 0) : retireIfUnused o s = s := by
  simp only [retireIfUnused, h]
  exact if_neg (not_and_or.2 hs)

/-- Settles O27: each end at its point and not before it, the report of either outcome by failMerge_of_look and settleMerge_staged. -/
theorem mergeEnds : Obligations.MergeEnds := by
  refine ⟨fun s j r hj hr => ⟨fun full more => ?_, fun early => ?_, exec_mergeComplete_early hj hr⟩, ?complete, fun _ _ => rfl,
    fun s o r hr => ⟨retireIfUnused_retiring hr, retireIfUnused_stays hr⟩⟩
  · rw [exec_mergeTooLarge hj, if_pos ⟨full, more⟩, failMerge_of_look hr, full]
  · rw [exec_mergeTooLarge hj, if_neg (by omega)]
  case complete =>
    rintro s j r _ _ hj hr rfl all cap range room rfl
    have length := length_baseHeader j.target j.entriesWritten
    obtain ⟨c, hc⟩ := writeObject_of_room range (baseHeader j.target j.entriesWritten) 0 s.content (by omega)
    refine ⟨c, hc, fun a ha => ?_, fun written hw => ?_⟩
    · exact readByte_writeObject_other r _ a 0 s.content c hc (by simpa only [length, Nat.zero_add] using ha)
    · obtain rfl : written = mergeFinished j r c s := hw
      rw [exec_mergeComplete hj hr all cap hc]
      refine ⟨fun place => ?_, fun taken => ?_⟩
      · rw [settleMerge_staged place]
        rfl
      · rw [settleMerge_superseded taken]
        rfl

end Sys2Proof.Machine

/-! PROOFS. Every command keeps the roster tables in order, the policy values in their ranges and the report queue within its places. -/

namespace Sys2Proof.Machine

/-! ## The relation -/

/-- What `t` keeps of `s`: the roster tables in order, the policy values in their ranges, the report queue within its places (R39, R40,
R151, R162). -/
structure FleetKept (s t : State) : Prop where
  roster : RosterOk s → RosterOk t
  policy : PolicyOk s → PolicyOk t
  queue : QueueOk s → QueueOk t

/-- The fields of the state that these three speak of. -/
structure Fleet where
  vehicles : Table Vehicle
  validators : Table Validator
  policy : Policy
  queue : List Report

/-- The roster tables, the policy and the report queue of a state. -/
def State.fleet (s : State) : Fleet := ⟨s.vehicles, s.validators, s.policy, s.host.queue⟩

theorem FleetKept.trans {s t u : State} (h : FleetKept s t) (k : FleetKept t u) : FleetKept s u :=
  ⟨fun o => k.roster (h.roster o), fun o => k.policy (h.policy o), fun o => k.queue (h.queue o)⟩

/-- What leaves the four fields as they are. -/
theorem fleetKept_same {s t : State} (h : t.fleet = s.fleet) : FleetKept s t := by
  obtain ⟨hv, hu, hp, hq⟩ := Fleet.mk.inj h
  refine ⟨fun o => ?_, fun o => ?_, fun o => ?_⟩
  · unfold RosterOk
    rwa [hv, hu]
  · unfold PolicyOk
    rwa [hp]
  · unfold QueueOk
    rwa [hq]

theorem FleetKept.refl (s : State) : FleetKept s s := fleetKept_same rfl

/-- What leaves the four fields as they are, after other work. -/
theorem FleetKept.same {s t u : State} (h : FleetKept s t) (k : u.fleet = t.fleet) : FleetKept s u := h.trans (fleetKept_same k)

/-- What leaves the four fields as they are, before other work. -/
theorem FleetKept.from {s t u : State} (h : FleetKept t u) (k : t.fleet = s.fleet) : FleetKept s u := (fleetKept_same k).trans h

/-- Work inside the part keeps all three. -/
theorem Inside.fleet {s t : State} (h : Inside s t) : FleetKept s t :=
  ⟨h.roster, fun o => by unfold PolicyOk; rw [h.policy]; exact o, h.queue⟩

/-- A change of the roster tables that keeps them in order. -/
theorem fleetKept_roster {s t : State} (hp : t.policy = s.policy) (hh : t.host.queue = s.host.queue) (hr : RosterOk s → RosterOk t) :
    FleetKept s t :=
  ⟨hr, fun o => by unfold PolicyOk; rwa [hp], fun o => by unfold QueueOk; rwa [hh]⟩

/-- A table whose entries change one by one stays in order. -/
theorem tableWf_map {α : Type} (f : Nat × α → Nat × α) (hf : ∀ p, (f p).1 = p.1) (cap : Nat) (t : Table α) :
    ∀ from_, tableWf cap from_ (t.map f) = tableWf cap from_ t := by
  induction t with
  | nil => exact fun _ => rfl
  | cons p t ih =>
    intro from_
    obtain ⟨i, a⟩ := p
    rw [List.map_cons, show f (i, a) = (i, (f (i, a)).2) from Prod.ext (hf _) rfl, tableWf, tableWf, ih]

section
variable (s : State)

@[simp] theorem modLane_fleet (i : LaneIx) (f : Lane → Lane) : (modLane i f s).fleet = s.fleet := rfl
@[simp] theorem advanceTo_fleet (t : Time) : (advanceTo t s).fleet = s.fleet := rfl
@[simp] theorem answer_fleet (c : Nat) (g : Byte) (st : Status) (b : List Byte) : (answer c g st b s).fleet = s.fleet := rfl
@[simp] theorem withClock_fleet (c : YardClock) : State.fleet { s with clock := c } = s.fleet := rfl
@[simp] theorem withDispatchDue_fleet (b : Bool) : State.fleet { s with dispatchDue := b } = s.fleet := rfl
@[simp] theorem leaveQuiet_fleet (i : LaneIx) (b : Bool) : (leaveQuiet i b s).fleet = s.fleet := rfl
@[simp] theorem leaveQuietByFrame_fleet (i : LaneIx) : (leaveQuietByFrame i s).fleet = s.fleet := rfl
@[simp] theorem enterQuiet_fleet (i : LaneIx) (n : Nat) : (enterQuiet i n s).fleet = s.fleet := rfl
@[simp] theorem endTransaction_fleet (i : LaneIx) (t : Transaction) (n : Nat) : (endTransaction i t n s).fleet = s.fleet := rfl
@[simp] theorem looseFrame_fleet (i : LaneIx) (n : Nat) : (looseFrame i n s).fleet = s.fleet := rfl
@[simp] theorem laneReply_fleet (g : Byte) (i : LaneIx) (b : Bool) : (laneReply g i b s).fleet = s.fleet := rfl
@[simp] theorem clearFault_fleet (i : LaneIx) : (clearFault i s).fleet = s.fleet := rfl

end

/-! ## What the commands share -/

theorem fleetKept_chooseAll (s : State) : FleetKept s (chooseAll s) := (inside_chooseAll s).fleet

theorem fleetKept_beginRound (i : LaneIx) (s : State) : FleetKept s (beginRound i s) := by
  simp only [beginRound]
  exact (FleetKept.from (Inside.foldl raiseAttempts inside_raiseAttempts _ _).fleet (by simp)).trans (inside_retestIdle i _).fleet

theorem fleetKept_endRound (i : LaneIx) (n : Nat) (s : State) : FleetKept s (endRound i n s) := by
  unfold endRound nextRound
  split_ifs
  · exact (fleetKept_beginRound ..).from (by simp)
  · exact fleetKept_same (enterQuiet_fleet ..)
  · exact (fleetKept_beginRound ..).from (by simp)

theorem fleetKept_handOutcome (o : Owner) (x : SlotOutcome) (s : State) : FleetKept s (handOutcome o x s) := by
  cases o with
  | slot k c => exact (inside_slotOutcome k c x s).fleet
  | answer => exact FleetKept.refl s
  | rollCall => exact FleetKept.refl s
  | ended => exact FleetKept.refl s

theorem fleetKept_failTransaction (i : LaneIx) (t : Transaction) (n : Nat) (s : State) :
    FleetKept s (failTransaction i t n s) := (fleetKept_handOutcome ..).from (by simp)

theorem fleetKept_garbledFrame (i : LaneIx) (n : Nat) (s : State) : FleetKept s (garbledFrame i n s) := by
  unfold garbledFrame
  split
  · exact fleetKept_same rfl
  · exact fleetKept_failTransaction ..

theorem fleetKept_verdictRefresh (o : Owner) (x : SlotOutcome) (s : State) : FleetKept s (verdictRefresh o x s) := by
  unfold verdictRefresh
  split
  · split
    · exact FleetKept.refl s
    · exact (inside_modValidator ..).fleet
  · exact FleetKept.refl s

theorem fleetKept_frameRefresh (f : RelayFrame) (s : State) : FleetKept s (frameRefresh f s) := by
  unfold frameRefresh
  split
  · exact FleetKept.refl s
  · exact (inside_refresh ..).fleet

theorem fleetKept_inquire (i : LaneIx) (f : RelayFrame) (s : State) : FleetKept s (inquire i f s) := by
  unfold inquire
  split
  · exact FleetKept.from (inside_retestIdle ..).fleet (by simp)
  · exact FleetKept.refl s

theorem fleetKept_relayAct (i : LaneIx) (f : RelayFrame) (s : State) : FleetKept s (relayAct i f s) := by
  unfold relayAct
  split
  · have announced := (inside_announce i f.vehicle ‹_› ‹_› s).fleet
    simp only
    split
    · exact announced.same (by simp)
    · exact announced
  · have inquired := fleetKept_inquire i f s
    simp only
    split
    · exact inquired.same (by simp)
    · exact inquired
  · exact FleetKept.refl s

theorem fleetKept_goodFrameEnd (i : LaneIx) (f : RelayFrame) (n : Nat) (s : State) : FleetKept s (goodFrameEnd i f n s) := by
  unfold goodFrameEnd
  split
  · exact ((fleetKept_frameRefresh ..).from (by simp)).trans (fleetKept_relayAct ..)
  · exact ((((fleetKept_frameRefresh ..).from (by simp)).trans (fleetKept_verdictRefresh ..)).trans (fleetKept_handOutcome ..)).trans
      (fleetKept_relayAct ..)

theorem fleetKept_enterResetting (i : LaneIx) (n : Nat) (s : State) : FleetKept s (enterResetting i n s) := by
  unfold enterResetting
  exact ((inside_abandonTransaction i n s).trans (inside_endLaneSlots ..)).fleet.same (modLane_fleet ..)

theorem fleetKept_receiveBreak (i : LaneIx) (n : Nat) (s : State) : FleetKept s (receiveBreak i n s) := by
  have entered := (fleetKept_enterResetting i n
    (modLane i (fun l => { l with breaks := raiseBreaks (s.lane i).breaks, fault := true }) s)).from (s := s) (by simp)
  simp only [receiveBreak]
  split
  · exact entered
  · exact entered.trans (inside_submit ..).fleet

theorem fleetKept_applyPresenceMode (i : LaneIx) (m : PresenceMode) (s : State) : FleetKept s (applyPresenceMode i m s) := by
  simp only [applyPresenceMode]
  split
  · exact FleetKept.refl s
  · split
    · exact (inside_clearArrival ..).fleet
    · exact (inside_retestIdle ..).fleet
    · split
      · split
        · exact (inside_retestIdle ..).fleet
        · exact (inside_setArrival ..).fleet
      · exact (inside_clearArrival ..).fleet

theorem fleetKept_switchOff (i : LaneIx) (s : State) : FleetKept s (switchOff i s) := by
  simp only [switchOff]
  exact (((inside_endLaneSlots ..).trans (inside_departLane ..)).fleet.from (modLane_fleet ..)).same (modLane_fleet ..)

theorem fleetKept_restamp (n : Nat) (s : State) : FleetKept s (restamp n s) :=
  by
  refine fleetKept_roster rfl rfl fun o => ⟨?_, ?_⟩
  · exact (tableWf_map _ (fun _ => by rfl) _ s.vehicles 0).trans o.1
  · exact (tableWf_map _ (fun _ => by rfl) _ s.validators 0).trans o.2

theorem fleetKept_setTime (n : Nat) (s : State) : FleetKept s (setTime n s) := by
  have stamped : FleetKept s (if s.clock.unset = true then restamp n { s with clock := ⟨n, false, s.now + millis 1000⟩ }
      else { s with clock := ⟨n, false, s.now + millis 1000⟩ }) := by
    split
    · exact (fleetKept_restamp ..).from (by simp)
    · exact fleetKept_same rfl
  simp only [setTime]
  split
  · exact stamped
  · exact stamped.trans (inside_silenceCheckAll _).fleet

/-- A masked value is in its range when the one that stands is. -/
theorem masked_range {mask bit lo hi carried stands : Nat} (h : lo ≤ stands ∧ stands ≤ hi) (r : lo ≤ hi) :
    lo ≤ masked mask bit lo hi carried stands ∧ masked mask bit lo hi carried stands ≤ hi := by
  unfold masked clampTo
  split_ifs <;> omega

theorem writtenPolicy_ok (mask : Nat) (f : Policy) {p : Policy} (h : p.Ok) : (writtenPolicy mask f p).Ok where
  retryLimit := masked_range h.retryLimit (by decide)
  pendingLimit := masked_range h.pendingLimit (by decide)
  urgentLag := masked_range h.urgentLag (by decide)
  scanPeriod := masked_range h.scanPeriod (by decide)
  silenceLimit := masked_range h.silenceLimit (by decide)
  wakeMaximum := masked_range h.wakeMaximum (by decide)
  relayDepth := masked_range h.relayDepth (by decide)
  reportThreshold := (masked_range ⟨Nat.zero_le _, h.reportThreshold⟩ (by decide)).2
  depotNumber := (masked_range ⟨Nat.zero_le _, h.depotNumber⟩ (by decide)).2

theorem inside_endAtLimit (limit : Nat) (s : State) (k : SlotIx) : Inside s (endAtLimit limit s k) := by
  unfold endAtLimit
  split
  · exact Inside.refl s
  · split
    · exact inside_endExhausted ..
    · exact Inside.refl s

theorem fleetKept_setPolicy {p : Policy} {s : State} (h : PolicyOk s → p.Ok) : FleetKept s (setPolicy p s) := by
  have written : ∀ {t : State}, Inside s t → ∀ d, FleetKept s { t with policy := p, dispatchDue := d } :=
    fun k _ => ⟨k.roster, h, k.queue⟩
  exact written (Inside.foldl (endAtLimit p.retryLimit) (inside_endAtLimit p.retryLimit) allSlots s) _

theorem fleetKept_clearNamed (g : Byte) (serial sel : Nat) (s : State) : FleetKept s (clearNamed g serial sel s) := by
  refine fleetKept_roster rfl rfl fun o => ⟨o.1, (tableWf_map _ (fun p => ?_) _ s.validators 0).trans o.2⟩
  split <;> rfl

theorem fleetKept_entryTurn {i : Nat} {v : Validator} (run : ScanRun) {s : State} (hv : look s.validators i = some v) :
    FleetKept s (entryTurn i v run s) := by
  have turned : ∀ (x : Validator) (r : ScanRun), FleetKept s (setRun r { s with validators := put s.validators i x }) :=
    fun x r => fleetKept_roster rfl rfl fun o => rosterOk_validator s i v x o hv
  unfold entryTurn
  split
  · exact turned _ _
  · exact (turned _ _).trans (inside_submitAll ..).fleet

theorem fleetKept_expectNew {s t : State} {v : Nat} (r : Vehicle) (h : roomForVehicle s = some (v, t)) :
    FleetKept s { t with vehicles := put t.vehicles v r } := by
  obtain ⟨made, below⟩ := inside_roomForVehicle s t v h
  exact ⟨fun o => ⟨tableWf_put _ _ v _ 0 (Nat.zero_le v) (below o) (made.roster o).1, (made.roster o).2⟩, made.fleet.policy, made.queue⟩

theorem length_dropOldest_le (n : Nat) (q : List Report) : (dropOldest n q).length ≤ q.length := by
  induction q with
  | nil => exact le_refl _
  | cons r q ih =>
    rw [dropOldest]
    split <;> simp only [List.length_cons] <;> omega

theorem fleetKept_beginSending (s : State) : FleetKept s (modHost beginSending s) := by
  have shorter : (beginSending s.host).queue.length ≤ s.host.queue.length := by
    unfold beginSending
    split
    · exact le_refl _
    · split
      · exact le_refl _
      · exact length_dropOldest_le ..
  exact ⟨id, id, fun o => shorter.trans o⟩

theorem fleetKept_start (s : State) (cause : StartCause) (p : Straps) (pin : Bool) (q : List Instr) :
    FleetKept s (State.start cause p pin q) :=
  ⟨fun _ => ⟨rfl, rfl⟩, fun _ => show Policy.defaults.Ok by constructor <;> decide, fun _ => show 1 ≤ Config.reportPlaces by decide⟩

end Sys2Proof.Machine

/-! PROOFS. Every command and every step keeps the roster, the policy and the report queue in bounds (R39, R40, R151, R162). -/

namespace Sys2Proof.Machine

/-- The next state that a meaning answers, if it answers one, keeps the roster, the policy and the report queue in bounds. -/
def KeepsFleet (s : State) (r : Result) : Prop := ∀ t, r = .next t → FleetKept s t

theorem keepsFleet_next {s t : State} (h : FleetKept s t) : KeepsFleet s (.next t) := fun _ e => by cases e; exact h

theorem keepsFleet_same {s t : State} (h : t.fleet = s.fleet) : KeepsFleet s (.next t) := keepsFleet_next (fleetKept_same h)

theorem keepsFleet_stay (s : State) : KeepsFleet s (.next s) := keepsFleet_same rfl

theorem keepsFleet_chooseAll {s t : State} (h : FleetKept s t) : KeepsFleet s (.next (chooseAll t)) :=
  keepsFleet_next (h.trans (fleetKept_chooseAll t))

section
variable (s : State)

/-! ## The host link (08) -/

theorem keepsFleet_resetPinRelease (p : Straps) : KeepsFleet s (execResetPinRelease p s) := by
  unfold execResetPinRelease
  split
  · exact keepsFleet_next (fleetKept_start ..)
  · exact keepsFleet_stay s

theorem keepsFleet_resetPartTakesEffect (p : Straps) : KeepsFleet s (execResetPartTakesEffect p s) := by
  unfold execResetPartTakesEffect
  split
  · exact keepsFleet_next (fleetKept_start ..)
  · exact keepsFleet_stay s

/-- What changes the link but leaves its queue as it is. -/
theorem fleetKept_modHost (f : HostLink → HostLink) (h : (f s.host).queue = s.host.queue) : FleetKept s (modHost f s) :=
  fleetKept_roster rfl h id

theorem dropFrame_queue (h : HostLink) : (dropFrame h).queue = h.queue := by
  unfold dropFrame
  split <;> rfl

theorem beginFrame_queue (h : HostLink) : (beginFrame h).queue = h.queue := by
  unfold beginFrame
  split <;> rfl

theorem keepsFleet_hostFrameStart : KeepsFleet s (execHostFrameStart s) := by
  unfold execHostFrameStart
  split
  · exact keepsFleet_next (fleetKept_modHost s _ (beginFrame_queue _))
  · exact keepsFleet_stay s

/-- A frame that ends without a request drops its buffer and reports it. -/
theorem keepsFleet_droppedFrame (b : ReportBody) : KeepsFleet s (.next (submit b (modHost dropFrame s))) :=
  keepsFleet_next ((fleetKept_modHost s _ (dropFrame_queue _)).trans (inside_submit ..).fleet)

theorem keepsFleet_hostFrameEnd (bs : List Byte) : KeepsFleet s (execHostFrameEnd bs s) := by
  unfold execHostFrameEnd goodHostFrame
  split
  · split
    · split
      · exact keepsFleet_next (fleetKept_modHost s _ rfl)
      · exact keepsFleet_droppedFrame s _
    · exact keepsFleet_droppedFrame s _
  · exact keepsFleet_stay s

theorem keepsFleet_hostFrameAbort (bs : List Byte) : KeepsFleet s (execHostFrameAbort bs s) := by
  unfold execHostFrameAbort
  split_ifs
  · exact keepsFleet_droppedFrame s _
  · exact keepsFleet_droppedFrame s _
  · exact keepsFleet_stay s
  · exact keepsFleet_stay s

theorem keepsFleet_hostFrameTimeout (bs : List Byte) : KeepsFleet s (execHostFrameTimeout bs s) := by
  unfold execHostFrameTimeout
  split
  · exact keepsFleet_droppedFrame s _
  · exact keepsFleet_stay s

theorem keepsFleet_hostLinkBreak : KeepsFleet s (execHostLinkBreak s) := by
  unfold execHostLinkBreak
  split <;> exact keepsFleet_same rfl

theorem keepsFleet_hostBreakEnd : KeepsFleet s (execHostBreakEnd s) := by
  unfold execHostBreakEnd
  split <;> exact keepsFleet_same rfl

theorem keepsFleet_requestTake : KeepsFleet s (execRequestTake s) := by
  unfold execRequestTake
  repeat' split
  all_goals exact keepsFleet_same rfl

theorem keepsFleet_transmitStart : KeepsFleet s (execTransmitStart s) := by
  unfold execTransmitStart
  split
  · exact keepsFleet_next (fleetKept_beginSending s)
  · exact keepsFleet_stay s

theorem keepsFleet_transmitEnd : KeepsFleet s (execTransmitEnd s) := by
  unfold execTransmitEnd
  split <;> exact keepsFleet_same rfl

theorem keepsFleet_identify : KeepsFleet s (execIdentify s) := by
  unfold execIdentify
  split <;> exact keepsFleet_same rfl

theorem keepsFleet_resetPart : KeepsFleet s (execResetPart s) := by
  unfold execResetPart
  split <;> exact keepsFleet_same rfl

/-! ## The content catalogue and the merge engine (01, 02) -/

theorem keepsFleet_loadOpen : KeepsFleet s (execLoadOpen s) := by
  unfold execLoadOpen loadOpen
  repeat' split
  all_goals exact keepsFleet_same rfl

theorem keepsFleet_loadData : KeepsFleet s (execLoadData s) := by
  unfold execLoadData
  split
  · unfold loadData
    split
    · exact keepsFleet_same rfl
    · split_ifs
      · exact keepsFleet_same rfl
      · exact keepsFleet_same rfl
      · exact keepsFleet_same rfl
      · exact keepsFleet_same rfl
      · split
        · intro _ e
          cases e
        · exact keepsFleet_same rfl
  · exact keepsFleet_stay s

/-- A request that frees one object and is answered. -/
theorem fleetKept_freedReply (c : Nat) (g : Byte) (st : Status) (fs : List Byte) (o : Nat) :
    FleetKept s (answer c g st fs (freeObject o s)) := (inside_freeObject o s).fleet.same (answer_fleet ..)

theorem fleetKept_closeLoading (g : Byte) (o : Nat) (r : ContentObject) (bs : List Byte) : FleetKept s (closeLoading g o r bs s) := by
  unfold closeLoading closeFreed
  repeat' split
  · exact fleetKept_freedReply ..
  · exact fleetKept_freedReply ..
  · exact fleetKept_freedReply ..
  · exact fleetKept_freedReply ..
  · exact fleetKept_same rfl
  · exact fleetKept_same rfl

theorem keepsFleet_loadClose : KeepsFleet s (execLoadClose s) := by
  unfold execLoadClose
  split
  · split
    · exact keepsFleet_same rfl
    · split
      · exact keepsFleet_same rfl
      · exact keepsFleet_next (fleetKept_closeLoading ..)
  · exact keepsFleet_stay s

theorem keepsFleet_discard : KeepsFleet s (execDiscard s) := by
  unfold execDiscard
  split
  · split
    · exact keepsFleet_same rfl
    · exact keepsFleet_next (fleetKept_freedReply ..)
    · exact keepsFleet_next (fleetKept_freedReply ..)
    · exact keepsFleet_next ((inside_discardMerge s).fleet.same (answer_fleet ..))
    · exact keepsFleet_same rfl
    · exact keepsFleet_same rfl
  · exact keepsFleet_stay s

/-- A publish that is carried out, with its reply and the choice points. -/
theorem keepsFleet_published {t : State} (g : Byte) (f : Option (Nat × Nat)) (h : Inside s t) :
    KeepsFleet s (.next (chooseAll (publishReply g f t))) := keepsFleet_chooseAll (h.fleet.same (answer_fleet ..))

theorem keepsFleet_publishFareImage : KeepsFleet s (execPublishFareImage s) := by
  unfold execPublishFareImage
  split
  · split
    · exact keepsFleet_same rfl
    · split
      · exact keepsFleet_same rfl
      · exact keepsFleet_published s _ _ (inside_publishFare ..)
    · exact keepsFleet_stay s
  · exact keepsFleet_stay s

theorem keepsFleet_publishDelta : KeepsFleet s (execPublishDelta s) := by
  unfold execPublishDelta
  split
  · split
    · exact keepsFleet_same rfl
    · split
      · exact keepsFleet_same rfl
      · exact keepsFleet_same rfl
      · split
        · exact keepsFleet_published s _ _ (inside_publishDelta ..)
        · exact keepsFleet_same rfl
    · exact keepsFleet_stay s
  · exact keepsFleet_stay s

theorem keepsFleet_publishBase : KeepsFleet s (execPublishBase s) := by
  unfold execPublishBase
  split
  · split
    · exact keepsFleet_same rfl
    · split
      · exact keepsFleet_same rfl
      · split
        · exact keepsFleet_published s _ _ (inside_startChain ..)
        · exact keepsFleet_published s _ _ (inside_rebase ..)
    · exact keepsFleet_stay s
  · exact keepsFleet_stay s

/-- A merge job that has taken its blocks and references (R31). -/
theorem fleetKept_mergeStarted (id n : Nat) (mk : List Nat → ContentObject) (ids : List Nat) (m : Option MergeJob) :
    FleetKept s { ids.foldl (fun t o => takeRef o t) (createObject id n mk s) with merge := m } :=
  FleetKept.from ((Inside.foldl _ (fun t o => inside_takeRef o t) ids _).trans (inside_merge m _)).fleet (by rfl)

theorem keepsFleet_merge : KeepsFleet s (execMerge s) := by
  simp only [execMerge, startMerge]
  split
  · split
    · exact keepsFleet_same rfl
    · split_ifs
      · exact keepsFleet_same rfl
      · exact keepsFleet_same rfl
      · split
        · exact keepsFleet_next (FleetKept.same (fleetKept_mergeStarted ..) (answer_fleet ..))
        · exact keepsFleet_same rfl
      · split <;> exact keepsFleet_same rfl
  · exact keepsFleet_stay s

theorem keepsFleet_mergeProgress (n : Nat) : KeepsFleet s (execMergeProgress n s) := by
  have written : ∀ {t : State}, FleetKept s t → ∀ c m, FleetKept s { t with content := c, merge := m } :=
    fun k _ _ => ⟨k.roster, k.policy, k.queue⟩
  simp only [execMergeProgress]
  split
  · exact keepsFleet_stay s
  · split
    · exact keepsFleet_stay s
    · split
      · split
        · intro _ e
          cases e
        · refine keepsFleet_next (written (Inside.fleet ?_) _ _)
          exact inside_modObject _ _ s (fun _ => rfl)
      · exact keepsFleet_stay s

theorem keepsFleet_mergeComplete : KeepsFleet s (execMergeComplete s) := by
  simp only [execMergeComplete]
  split
  · exact keepsFleet_stay s
  · split
    · exact keepsFleet_stay s
    · split
      · split
        · intro _ e
          cases e
        · exact keepsFleet_next (((inside_settleMerge ..).trans (inside_retireSources ..)).fleet.from (by rfl))
      · exact keepsFleet_stay s

theorem keepsFleet_mergeTooLarge : KeepsFleet s (execMergeTooLarge s) := by
  unfold execMergeTooLarge
  split
  · exact keepsFleet_stay s
  · split
    · exact keepsFleet_next ((inside_failMerge ..).trans (inside_retireSources ..)).fleet
    · exact keepsFleet_stay s

theorem keepsFleet_listObjects : KeepsFleet s (execListObjects s) := by
  unfold execListObjects
  split <;> exact keepsFleet_same rfl

/-! ## The fleet requests (03) -/

theorem keepsFleet_expectVehicle : KeepsFleet s (execExpectVehicle s) := by
  unfold execExpectVehicle expectVehicle
  split
  · split
    · split
      · exact keepsFleet_same rfl
      · split
        · exact keepsFleet_chooseAll ((inside_expectKnown ..).fleet.same (answer_fleet ..))
        · split
          · exact keepsFleet_same rfl
          · rename_i room
            exact keepsFleet_chooseAll ((fleetKept_expectNew _ room).same (answer_fleet ..))
    · exact keepsFleet_same rfl
  · exact keepsFleet_stay s

theorem keepsFleet_setDeparture : KeepsFleet s (execSetDeparture s) := by
  unfold execSetDeparture
  split
  · split
    · split
      · exact keepsFleet_same rfl
      · exact keepsFleet_next ((inside_modVehicle ..).fleet.same (answer_fleet ..))
    · exact keepsFleet_same rfl
  · exact keepsFleet_stay s

theorem keepsFleet_departVehicle : KeepsFleet s (execDepartVehicle s) := by
  unfold execDepartVehicle
  split
  · split
    · split
      · exact keepsFleet_same rfl
      · exact keepsFleet_chooseAll ((inside_departKnown ..).fleet.same (answer_fleet ..))
    · exact keepsFleet_same rfl
  · exact keepsFleet_stay s

theorem keepsFleet_readVehicle : KeepsFleet s (execReadVehicle s) := by
  unfold execReadVehicle
  repeat' split
  all_goals exact keepsFleet_same rfl

theorem keepsFleet_readValidator : KeepsFleet s (execReadValidator s) := by
  unfold execReadValidator
  repeat' split
  all_goals exact keepsFleet_same rfl

theorem keepsFleet_readRanking : KeepsFleet s (execReadRanking s) := by
  unfold execReadRanking
  split <;> exact keepsFleet_same rfl

theorem keepsFleet_clearFlags : KeepsFleet s (execClearFlags s) := by
  unfold execClearFlags
  split
  · split
    · exact keepsFleet_same rfl
    · split
      · exact keepsFleet_same rfl
      · exact keepsFleet_next (fleetKept_clearNamed ..)
  · exact keepsFleet_stay s

theorem keepsFleet_silenceLimitReached (v : Nat) : KeepsFleet s (execSilenceLimitReached v s) := by
  unfold execSilenceLimitReached
  split
  · exact keepsFleet_stay s
  · exact keepsFleet_chooseAll (inside_silenceCheck s v).fleet

/-! ## Lane requests, policy, clock and scanner (04, 07, 08) -/

theorem keepsFleet_laneOn (g : Byte) (i : LaneIx) (mask : Nat) (f : RawLaneFields) :
    KeepsFleet s (.next (laneOn g i mask f s)) := keepsFleet_chooseAll (fleetKept_same rfl)

theorem keepsFleet_laneOffRequest (g : Byte) (i : LaneIx) : KeepsFleet s (.next (laneOffRequest g i s)) :=
  keepsFleet_chooseAll ((fleetKept_switchOff i s).same (laneReply_fleet ..))

theorem fleetKept_writeLane (i : LaneIx) (mask : Nat) (f : RawLaneFields) : FleetKept s (writeLane i mask f s) :=
  FleetKept.from (fleetKept_applyPresenceMode i _ _) (by rfl)

theorem keepsFleet_setLane : KeepsFleet s (execSetLane s) := by
  unfold execSetLane
  split
  · split
    · exact keepsFleet_same rfl
    · split_ifs
      · exact keepsFleet_same rfl
      · exact keepsFleet_laneOn s _ _ _ _
      · exact keepsFleet_chooseAll ((fleetKept_writeLane ..).same (laneReply_fleet ..))
      · exact keepsFleet_same rfl
      · exact keepsFleet_laneOffRequest s _ _
  · exact keepsFleet_stay s

theorem keepsFleet_switchLaneOn : KeepsFleet s (execSwitchLaneOn s) := by
  unfold execSwitchLaneOn
  split
  · split
    · exact keepsFleet_same rfl
    · split_ifs
      · exact keepsFleet_same rfl
      · exact keepsFleet_laneOn s _ _ _ _
      · exact keepsFleet_stay s
  · exact keepsFleet_stay s

theorem keepsFleet_switchLaneOff : KeepsFleet s (execSwitchLaneOff s) := by
  unfold execSwitchLaneOff
  split
  · split
    · exact keepsFleet_same rfl
    · split_ifs
      · exact keepsFleet_same rfl
      · exact keepsFleet_same rfl
      · exact keepsFleet_laneOffRequest s _ _
      · exact keepsFleet_stay s
  · exact keepsFleet_stay s

theorem keepsFleet_readLane : KeepsFleet s (execReadLane s) := by
  unfold execReadLane
  repeat' split
  all_goals exact keepsFleet_same rfl

theorem keepsFleet_resetLane : KeepsFleet s (execResetLane s) := by
  unfold execResetLane
  split
  · split
    · exact keepsFleet_same rfl
    · split
      · exact keepsFleet_same rfl
      · exact keepsFleet_same rfl
      · exact keepsFleet_chooseAll ((fleetKept_enterResetting ..).same ((answer_fleet ..).trans (clearFault_fleet ..)))
  · exact keepsFleet_stay s

theorem keepsFleet_wakeLane : KeepsFleet s (execWakeLane s) := by
  unfold execWakeLane
  repeat' split
  all_goals exact keepsFleet_same rfl

theorem keepsFleet_setPolicy : KeepsFleet s (execSetPolicy s) := by
  unfold execSetPolicy
  split
  · split
    · exact keepsFleet_same rfl
    · exact keepsFleet_chooseAll ((fleetKept_setPolicy (writtenPolicy_ok _ _)).same (answer_fleet ..))
  · exact keepsFleet_stay s

theorem keepsFleet_setTime : KeepsFleet s (execSetTime s) := by
  unfold execSetTime
  split
  · exact keepsFleet_chooseAll ((fleetKept_setTime ..).same (answer_fleet ..))
  · exact keepsFleet_stay s

theorem keepsFleet_scanNow : KeepsFleet s (execScanNow s) := by
  unfold execScanNow
  repeat' split
  all_goals exact keepsFleet_same rfl

theorem keepsFleet_readSlots : KeepsFleet s (execReadSlots s) := by
  unfold execReadSlots
  split <;> exact keepsFleet_same rfl

theorem keepsFleet_yardClockTick : KeepsFleet s (execYardClockTick s) := by
  refine keepsFleet_chooseAll ?_
  split
  · exact fleetKept_same rfl
  · exact (inside_silenceCheckAll _).fleet.from (by rfl)

theorem keepsFleet_scanPeriodExpiry : KeepsFleet s (execScanPeriodExpiry s) := by
  unfold execScanPeriodExpiry
  split <;> exact keepsFleet_same rfl

theorem keepsFleet_scanEntryTurn (i : Nat) : KeepsFleet s (execScanEntryTurn i s) := by
  unfold execScanEntryTurn
  split
  · exact keepsFleet_stay s
  · split
    · split
      · exact keepsFleet_same rfl
      · rename_i hv
        exact keepsFleet_next (fleetKept_entryTurn _ hv)
    · exact keepsFleet_stay s

theorem keepsFleet_scanComplete : KeepsFleet s (execScanComplete s) := by
  unfold execScanComplete
  split
  · exact keepsFleet_stay s
  · split
    · exact keepsFleet_next ((inside_submit ..).fleet.from (by rfl))
    · exact keepsFleet_stay s

theorem keepsFleet_dispatchWalk : KeepsFleet s (execDispatchWalk s) := by
  unfold execDispatchWalk
  split
  · split
    · exact keepsFleet_same rfl
    · exact keepsFleet_next (inside_dispatchWalk ..).fleet
  · exact keepsFleet_stay s

/-! ## Lane rounds, frames and gating (06, 07) -/

theorem keepsFleet_lanePreambleEnd (i : LaneIx) : KeepsFleet s (execLanePreambleEnd i s) := by
  unfold execLanePreambleEnd
  split
  · exact keepsFleet_next ((fleetKept_beginRound ..).from (advanceTo_fleet ..))
  · exact keepsFleet_stay s

theorem keepsFleet_roundEnd (i : LaneIx) (n : Nat) : KeepsFleet s (execRoundEnd i n s) := by
  unfold execRoundEnd
  split
  · exact keepsFleet_next ((fleetKept_endRound ..).from (advanceTo_fleet ..))
  · exact keepsFleet_stay s

theorem keepsFleet_beaconEnd (i : LaneIx) : KeepsFleet s (execBeaconEnd i s) := by
  unfold execBeaconEnd
  split <;> exact keepsFleet_same rfl

theorem fleetKept_closeWindow (i : LaneIx) : FleetKept s (closeWindow i s) := by
  simp only [closeWindow]
  split
  · exact (inside_clearArrival ..).fleet.from (modLane_fleet ..)
  · exact fleetKept_same (modLane_fleet ..)

theorem keepsFleet_windowClose (i : LaneIx) : KeepsFleet s (execWindowClose i s) := by
  unfold execWindowClose
  split
  · exact keepsFleet_chooseAll ((fleetKept_closeWindow ..).from (advanceTo_fleet ..))
  · exact keepsFleet_stay s

theorem keepsFleet_fetchTimeReached (k : SlotIx) : KeepsFleet s (execFetchTimeReached k s) := by
  unfold execFetchTimeReached
  split
  · exact keepsFleet_stay s
  · split
    · exact keepsFleet_chooseAll (fleetKept_same (advanceTo_fleet ..))
    · exact keepsFleet_stay s

theorem keepsFleet_stateSendEnd (i : LaneIx) : KeepsFleet s (execStateSendEnd i s) := by
  unfold execStateSendEnd
  split
  · exact keepsFleet_stay s
  · split
    · exact keepsFleet_chooseAll (fleetKept_same rfl)
    · exact keepsFleet_stay s

/-- A transaction that fails at a moment. -/
theorem keepsFleet_failTransaction (i : LaneIx) (t : Transaction) (n : Nat) (at_ : Time) :
    KeepsFleet s (.next (chooseAll (failTransaction i t n (advanceTo at_ s)))) :=
  keepsFleet_chooseAll ((fleetKept_failTransaction ..).from (advanceTo_fleet ..))

theorem keepsFleet_replyTimeout (i : LaneIx) : KeepsFleet s (execReplyTimeout i s) := by
  unfold execReplyTimeout
  split
  · exact keepsFleet_stay s
  · split
    · exact keepsFleet_stay s
    · exact keepsFleet_failTransaction s _ _ _ _

theorem keepsFleet_transactionBudgetEnd (i : LaneIx) (n : Nat) : KeepsFleet s (execTransactionBudgetEnd i n s) := by
  unfold execTransactionBudgetEnd
  split
  · exact keepsFleet_stay s
  · split
    · exact keepsFleet_stay s
    · exact keepsFleet_failTransaction s _ _ _ _

theorem keepsFleet_garbledFrame (i : LaneIx) (n : Nat) (at_ : Time) :
    KeepsFleet s (.next (chooseAll (garbledFrame i n (advanceTo at_ s)))) :=
  keepsFleet_chooseAll ((fleetKept_garbledFrame ..).from (advanceTo_fleet ..))

theorem keepsFleet_laneFrameReceived (i : LaneIx) (bs : List Byte) (at_ : Time) :
    KeepsFleet s (execLaneFrameReceived i bs at_ s) := by
  simp only [execLaneFrameReceived]
  split
  · split
    · exact keepsFleet_garbledFrame s _ _ _
    · exact keepsFleet_chooseAll ((fleetKept_goodFrameEnd ..).from (advanceTo_fleet ..))
  · exact keepsFleet_stay s

theorem keepsFleet_laneFrameIdleEnd (i : LaneIx) (n : Nat) (at_ : Time) : KeepsFleet s (execLaneFrameIdleEnd i n at_ s) := by
  simp only [execLaneFrameIdleEnd]
  split
  · exact keepsFleet_garbledFrame s _ _ _
  · exact keepsFleet_stay s

theorem keepsFleet_laneFrameTooLong (i : LaneIx) (bs : List Byte) (at_ : Time) :
    KeepsFleet s (execLaneFrameTooLong i bs at_ s) := by
  simp only [execLaneFrameTooLong]
  split
  · exact keepsFleet_garbledFrame s _ _ _
  · exact keepsFleet_stay s

theorem keepsFleet_laneFrameStart (i : LaneIx) (at_ : Time) : KeepsFleet s (execLaneFrameStart i at_ s) := by
  simp only [execLaneFrameStart]
  split <;> exact keepsFleet_same rfl

theorem keepsFleet_quietDelayExpiry (i : LaneIx) : KeepsFleet s (execQuietDelayExpiry i s) := by
  unfold execQuietDelayExpiry
  split <;> exact keepsFleet_same rfl

theorem keepsFleet_quietMaximumExpiry (i : LaneIx) : KeepsFleet s (execQuietMaximumExpiry i s) := by
  unfold execQuietMaximumExpiry
  repeat' split
  all_goals exact keepsFleet_same rfl

theorem keepsFleet_presenceAssert (i : LaneIx) : KeepsFleet s (execPresenceAssert i s) := by
  simp only [execPresenceAssert]
  split_ifs
  · exact keepsFleet_stay s
  · exact keepsFleet_same rfl
  · exact keepsFleet_next ((inside_setArrival ..).fleet.from (modLane_fleet ..))

theorem keepsFleet_presenceDeassert (i : LaneIx) : KeepsFleet s (execPresenceDeassert i s) := by
  simp only [execPresenceDeassert]
  split_ifs
  · exact keepsFleet_next ((inside_clearArrival ..).fleet.from (modLane_fleet ..))
  · exact keepsFleet_same rfl
  · exact keepsFleet_stay s

theorem keepsFleet_laneBreakReceived (i : LaneIx) (n : Nat) (at_ : Time) : KeepsFleet s (execLaneBreakReceived i n at_ s) := by
  simp only [execLaneBreakReceived]
  split
  · exact keepsFleet_chooseAll ((fleetKept_receiveBreak ..).from (advanceTo_fleet ..))
  · exact keepsFleet_stay s

theorem keepsFleet_laneBreakEnd (i : LaneIx) : KeepsFleet s (execLaneBreakEnd i s) := by
  unfold execLaneBreakEnd
  split <;> exact keepsFleet_same rfl

end

/-! ## All of them -/

theorem keepsFleet_exec (s : State) (c : Instr) : KeepsFleet s (exec c s) := by
  cases c
  case powerOn p => exact keepsFleet_next (fleetKept_start ..)
  case resetPinAssert => exact keepsFleet_same rfl
  case resetPinRelease p => exact keepsFleet_resetPinRelease s p
  case resetPartTakesEffect p => exact keepsFleet_resetPartTakesEffect s p
  case hostFrameStart => exact keepsFleet_hostFrameStart s
  case hostFrameEnd bs => exact keepsFleet_hostFrameEnd s bs
  case hostFrameAbort bs => exact keepsFleet_hostFrameAbort s bs
  case hostFrameTimeout bs => exact keepsFleet_hostFrameTimeout s bs
  case hostLinkBreak => exact keepsFleet_hostLinkBreak s
  case hostBreakEnd => exact keepsFleet_hostBreakEnd s
  case requestTake => exact keepsFleet_requestTake s
  case transmitStart => exact keepsFleet_transmitStart s
  case transmitEnd => exact keepsFleet_transmitEnd s
  case identify => exact keepsFleet_identify s
  case resetPart => exact keepsFleet_resetPart s
  case loadOpen => exact keepsFleet_loadOpen s
  case loadData => exact keepsFleet_loadData s
  case loadClose => exact keepsFleet_loadClose s
  case discard => exact keepsFleet_discard s
  case publishFareImage => exact keepsFleet_publishFareImage s
  case publishDelta => exact keepsFleet_publishDelta s
  case publishBase => exact keepsFleet_publishBase s
  case merge => exact keepsFleet_merge s
  case mergeProgress n => exact keepsFleet_mergeProgress s n
  case mergeComplete => exact keepsFleet_mergeComplete s
  case mergeTooLarge => exact keepsFleet_mergeTooLarge s
  case listObjects => exact keepsFleet_listObjects s
  case expectVehicle => exact keepsFleet_expectVehicle s
  case setDeparture => exact keepsFleet_setDeparture s
  case departVehicle => exact keepsFleet_departVehicle s
  case readVehicle => exact keepsFleet_readVehicle s
  case readValidator => exact keepsFleet_readValidator s
  case readRanking => exact keepsFleet_readRanking s
  case clearFlags => exact keepsFleet_clearFlags s
  case setLane => exact keepsFleet_setLane s
  case switchLaneOn => exact keepsFleet_switchLaneOn s
  case switchLaneOff => exact keepsFleet_switchLaneOff s
  case readLane => exact keepsFleet_readLane s
  case resetLane => exact keepsFleet_resetLane s
  case wakeLane => exact keepsFleet_wakeLane s
  case setPolicy => exact keepsFleet_setPolicy s
  case setTime => exact keepsFleet_setTime s
  case scanNow => exact keepsFleet_scanNow s
  case readSlots => exact keepsFleet_readSlots s
  case yardClockTick => exact keepsFleet_yardClockTick s
  case silenceLimitReached v => exact keepsFleet_silenceLimitReached s v
  case scanPeriodExpiry => exact keepsFleet_scanPeriodExpiry s
  case scanEntryTurn i => exact keepsFleet_scanEntryTurn s i
  case scanComplete => exact keepsFleet_scanComplete s
  case dispatchWalk => exact keepsFleet_dispatchWalk s
  case lanePreambleEnd i => exact keepsFleet_lanePreambleEnd s i
  case roundEnd i n => exact keepsFleet_roundEnd s i n
  case beaconEnd i => exact keepsFleet_beaconEnd s i
  case windowClose i => exact keepsFleet_windowClose s i
  case fetchTimeReached k => exact keepsFleet_fetchTimeReached s k
  case stateSendEnd i => exact keepsFleet_stateSendEnd s i
  case laneFrameReceived i bs t => exact keepsFleet_laneFrameReceived s i bs t
  case laneFrameIdleEnd i n t => exact keepsFleet_laneFrameIdleEnd s i n t
  case replyTimeout i => exact keepsFleet_replyTimeout s i
  case transactionBudgetEnd i n => exact keepsFleet_transactionBudgetEnd s i n
  case quietDelayExpiry i => exact keepsFleet_quietDelayExpiry s i
  case quietMaximumExpiry i => exact keepsFleet_quietMaximumExpiry s i
  case presenceAssert i => exact keepsFleet_presenceAssert s i
  case presenceDeassert i => exact keepsFleet_presenceDeassert s i
  case laneBreakReceived i n t => exact keepsFleet_laneBreakReceived s i n t
  case laneBreakEnd i => exact keepsFleet_laneBreakEnd s i
  case laneFrameStart i t => exact keepsFleet_laneFrameStart s i t
  case laneFrameTooLong i bs t => exact keepsFleet_laneFrameTooLong s i bs t

/-- Settles O60: an idle step leaves all three as they are, and each command keeps them: most work inside the part (Inside), SET_POLICY
clamps what it writes, a new vehicle takes a number below 256, and a reset starts with empty tables, the defaults and one report. -/
theorem stepKeepsRosterPolicyAndQueue : Obligations.StepKeepsRosterPolicyAndQueue := by
  intro s t roster policy queue h
  have kept : FleetKept s t := by
    unfold step at h
    split at h
    · cases h
      exact fleetKept_same rfl
    · exact (keepsFleet_exec _ _ t h).from rfl
  exact ⟨kept.roster roster, kept.policy policy, kept.queue queue⟩

end Sys2Proof.Machine

/-! PROOFS. The requests of the fleet: EXPECT_VEHICLE, SET_DEPARTURE, DEPART_VEHICLE, the five read requests, and the work list. -/

namespace Sys2Proof.Machine

/-! ## Names that a request may carry -/

theorem vehicleNumberOk_iff (n : Nat) : vehicleNumberOk n = true ↔ 1 ≤ n ∧ n < 65535 := by
  rw [vehicleNumberOk, Bool.and_eq_true, decide_eq_true_iff, decide_eq_true_iff]
  omega

theorem vehicleNumberOk_of_range {n : Nat} (h1 : 1 ≤ n) (h2 : n < 65535) : vehicleNumberOk n = true :=
  (vehicleNumberOk_iff n).2 ⟨h1, h2⟩

theorem vehicleNumberOk_of_bad {n : Nat} (h : n = 0 ∨ 65535 ≤ n) : vehicleNumberOk n = false :=
  Bool.eq_false_iff.2 (mt (vehicleNumberOk_iff n).1 (by omega))

@[simp] theorem laneOf_val (i : LaneIx) : laneOf i.val = some i := dif_pos i.isLt

theorem laneOf_of_le {n : Nat} (h : 6 ≤ n) : laneOf n = none := dif_neg (by omega)

/-! ## SET_DEPARTURE and DEPART_VEHICLE (R42) -/

theorem departKnown_departed {s : State} {v : Nat} {r : Vehicle} (hr : look s.vehicles v = some r) (h : r.state = .departed) :
    departKnown v s = s := by
  simp [departKnown, hr, h]

theorem departKnown_other {s : State} {v : Nat} {r : Vehicle} (hr : look s.vehicles v = some r) (h : r.state ≠ .departed) :
    departKnown v s = depart v .request s := by
  simp [departKnown, hr, h]

/-- Settles O29: the checks of the two requests in their order; SET_DEPARTURE changes one field of a record that is there. -/
theorem departureRequests : Obligations.DepartureRequests := by
  refine fun s tag number departure => ⟨fun hq => ?_, fun hq => ?_⟩
  · simp only [exec, execSetDeparture, show s.host.processor = .busy tag (.setDeparture number departure) from hq]
    refine ⟨fun bad => ?_, fun h1 h2 hn => ?_, fun v r h1 h2 hv hr => ?_⟩
    · rw [vehicleNumberOk_of_bad bad]
      rfl
    · rw [vehicleNumberOk_of_range h1 h2, hn]
      rfl
    · rw [vehicleNumberOk_of_range h1 h2, hv, if_pos rfl]
      dsimp only
      rw [modVehicle_of_look hr]
      rfl
  · simp only [exec, execDepartVehicle, show s.host.processor = .busy tag (.departVehicle number) from hq]
    refine ⟨fun bad => ?_, fun h1 h2 hn => ?_, fun v r h1 h2 hv hr => ?_⟩
    · rw [vehicleNumberOk_of_bad bad]
      rfl
    · rw [vehicleNumberOk_of_range h1 h2, hn]
      rfl
    · rw [vehicleNumberOk_of_range h1 h2, hv, if_pos rfl]
      dsimp only
      refine ⟨fun hd => ?_, fun hd => ?_⟩
      · rw [departKnown_departed hr hd]
        rfl
      · rw [departKnown_other hr hd]
        rfl

/-! ## Room in the roster (R39, R40, R48, R52) -/

theorem roomForVehicle_unused {s : State} (h : lowestUnused 0 s.vehicles < 256) :
    roomForVehicle s = some (lowestUnused 0 s.vehicles, s) := if_pos h

theorem roomForVehicle_full {s : State} (h : 256 ≤ lowestUnused 0 s.vehicles) :
    roomForVehicle s = (vehicleToEvict s).map (fun p => (p.1, evictVehicle p.1 p.2 s)) := by
  rw [roomForVehicle, if_neg (by simpa [Config.vehicleEntries] using h)]
  cases vehicleToEvict s <;> rfl

theorem evictable_iff (r : Vehicle) : evictable r = true ↔ r.state = .departed ∨ r.state = .unreachable := by
  simp [evictable]

/-- The entry to be evicted is the oldest of the DEPARTED and UNREACHABLE ones (R48). -/
theorem oldest_vehicleToEvict {s : State} (h : RosterOk s) :
    Oldest Vehicle.lastHeard s.vehicles (fun r => r.state = .departed ∨ r.state = .unreachable) (vehicleToEvict s) :=
  oldest_filter Vehicle.lastHeard _ 0 s.vehicles _ _ h.1 (fun p => evictable_iff p.2)

/-! ## EXPECT_VEHICLE (R41) -/

theorem exec_expectVehicle {s : State} {tag : Byte} {number lane departure : Nat}
    (hq : Held s tag (.expectVehicle number lane departure)) :
    exec .expectVehicle s = .next (expectVehicle tag number lane departure s) := by
  simp only [exec, execExpectVehicle, show s.host.processor = .busy tag (.expectVehicle number lane departure) from hq]

theorem expectVehicle_badField {s : State} {tag : Byte} {number lane departure : Nat}
    (h : number = 0 ∨ 65535 ≤ number ∨ 6 ≤ lane) : expectVehicle tag number lane departure s = replied 0x8A tag .badField [] s := by
  unfold expectVehicle
  split
  · rename_i i hn hl
    have range := (vehicleNumberOk_iff number).1 hn
    have wide : 6 ≤ lane := by omega
    rw [laneOf_of_le wide] at hl
    cases hl
  · rfl

/-- A record that exists takes lane and departure time, and its slots end when the lane differs. -/
theorem expectKnown_of_look {s : State} {v : Nat} {r : Vehicle} (hr : look s.vehicles v = some r) (i : LaneIx) (d : Option Nat) :
    expectKnown v i d s =
      let u := { s with vehicles := put s.vehicles v { r with
        lane := i, departure := d, wakeAttempts := 0, state := if r.state = .present then .present else .expected } }
      if r.lane = i then u else endVehicleSlots v .moved u := by
  unfold expectKnown
  rw [hr]
  dsimp only
  rw [modVehicle_of_look hr]

/-- Settles O28: the checks of EXPECT_VEHICLE in their order, and roomForVehicle for a new record; the evicted entry is
oldest_vehicleToEvict. -/
theorem expectVehicleOutcome : Obligations.ExpectVehicleOutcome := by
  refine ⟨fun s tag number lane departure hq => ?_, fun s => oldest_vehicleToEvict⟩
  rw [exec_expectVehicle hq]
  refine ⟨fun bad => congrArg _ (expectVehicle_badField bad), fun i h1 h2 hl => ?_⟩
  subst hl
  unfold expectVehicle
  rw [vehicleNumberOk_of_range h1 h2, laneOf_val]
  dsimp only
  refine ⟨fun off => ?_, fun on => ?_⟩
  · rw [if_pos off]
    rfl
  · rw [if_neg on]
    refine ⟨fun v r u hv hr hu => ?_, fun v hv hlow hlt => ?_, fun v r hv hlow he => ?_, fun hv hlow he => ?_⟩
    · rw [hv]
      dsimp only
      rw [expectKnown_of_look hr]
      subst hu
      exact ⟨fun h => by rw [if_pos h]; rfl, fun h => by rw [if_neg h]; rfl⟩
    · subst hlow
      rw [hv, roomForVehicle_unused hlt]
      rfl
    · rw [hv, roomForVehicle_full hlow, he]
      rfl
    · rw [hv, roomForVehicle_full hlow, he]
      rfl

/-! ## The read requests (R61, R84, R109, R161) -/

/-- A position or count of a request, brought into its range by a minimum and a maximum. -/
theorem clampTo_eq {lo hi : Nat} (h : lo ≤ hi) (n : Nat) : clampTo lo hi n = max lo (min n hi) := by
  unfold clampTo
  split_ifs <;> omega

theorem readVehicle_outcome (s : State) (tag : Byte) (number : Nat) (hq : Held s tag (.readVehicle number)) :
    (number = 0 ∨ 65535 ≤ number → exec .readVehicle s = .next (replied 0x8D tag .badField [] s)) ∧
    (1 ≤ number → number < 65535 → vehicleAt s number = none → exec .readVehicle s = .next (replied 0x8D tag .notFound [] s)) ∧
    (∀ v r, 1 ≤ number → number < 65535 → vehicleAt s number = some v → look s.vehicles v = some r →
      exec .readVehicle s = .next (replied 0x8D tag .ok (vehicleFields s v r) s)) := by
  simp only [exec, execReadVehicle, show s.host.processor = .busy tag (.readVehicle number) from hq]
  refine ⟨fun bad => ?_, fun h1 h2 hn => ?_, fun v r h1 h2 hv hr => ?_⟩
  · rw [vehicleNumberOk_of_bad bad]
    rfl
  · rw [vehicleNumberOk_of_range h1 h2, hn]
    rfl
  · rw [vehicleNumberOk_of_range h1 h2, hv, if_pos rfl]
    dsimp only
    rw [hr]
    rfl

/-- The serial of an entry as a READ_VEHICLE reply carries it, 0 for an unused entry. -/
theorem serialBytes_eq (s : State) (i : Nat) : (match look s.validators i with
      | none => leBytes 4 0
      | some x => leBytes 4 x.serial) = leBytes 4 (((look s.validators i).map Validator.serial).getD 0) := by
  cases look s.validators i <;> rfl

theorem vehicleFields_eq (s : State) (v : Nat) (r : Vehicle) : vehicleFields s v r =
    leBytes 1 v ++ leBytes 2 r.number ++ leBytes 1 r.lane ++ leBytes 1 r.state.code ++ leBytes 4 (orZero r.departure) ++
      leBytes 4 r.lastHeard ++ leBytes 1 r.wakeAttempts ++ leBytes 1 r.boundSlots ++ leBytes 1 r.validators.length ++
      r.validators.flatMap (fun i => leBytes 4 (((look s.validators i).map Validator.serial).getD 0)) := by
  rw [vehicleFields]
  congr 2
  funext i
  exact serialBytes_eq s i

theorem readValidator_outcome (s : State) (tag : Byte) (serial : Nat) (hq : Held s tag (.readValidator serial)) :
    (serial = 0 → exec .readValidator s = .next (replied 0x8E tag .badField [] s)) ∧
    (serial ≠ 0 → validatorAt s serial = none → exec .readValidator s = .next (replied 0x8E tag .notFound [] s)) ∧
    (∀ i v, serial ≠ 0 → validatorAt s serial = some i → look s.validators i = some v →
      exec .readValidator s = .next (replied 0x8E tag .ok (validatorFields s i v) s)) := by
  simp only [exec, execReadValidator, show s.host.processor = .busy tag (.readValidator serial) from hq]
  refine ⟨fun h => ?_, fun h hn => ?_, fun i v h hi hv => ?_⟩
  · rw [if_pos h]
    rfl
  · rw [if_neg h, hn]
    rfl
  · rw [if_neg h, hi]
    dsimp only
    rw [hv]
    rfl

theorem readRanking_outcome (s : State) (tag : Byte) (start count from_ upTo : Nat) (es : List RankedEntry)
    (hq : Held s tag (.readRanking start count)) (hf : from_ = min start 1023) (hu : upTo = max 1 (min count 64))
    (he : es = (s.scanner.ranked.drop from_).take upTo) :
    exec .readRanking s = .next (replied 0x8F tag (if from_ = start ∧ upTo = count then .ok else .clamped)
      (leBytes 2 s.scanner.ranked.length ++ leBytes 4 s.scanner.completedAt ++ boolByte s.scanner.run.isSome ++
        leBytes 1 es.length ++ es.flatMap rankedRecord) s) := by
  have first : clampTo 0 1023 start = from_ := by rw [clampTo_eq (by decide), hf]; omega
  have many : clampTo 1 64 count = upTo := by rw [clampTo_eq (by decide), hu]
  simp only [exec, execReadRanking, show s.host.processor = .busy tag (.readRanking start count) from hq, rankingFields, rankedPart,
    first, many, ← he]
  rfl

theorem readLane_outcome (s : State) (tag : Byte) (lane : Nat) (hq : Held s tag (.readLane lane)) :
    (6 ≤ lane → exec .readLane s = .next (replied 0x92 tag .badField [] s)) ∧
    (∀ i : LaneIx, lane = i.val →
      ((s.lane i).state = .off → exec .readLane s = .next (replied 0x92 tag .laneOff [] s)) ∧
      ((s.lane i).state ≠ .off → exec .readLane s = .next (replied 0x92 tag .ok (laneRecord s i) s))) := by
  simp only [exec, execReadLane, show s.host.processor = .busy tag (.readLane lane) from hq]
  refine ⟨fun h => ?_, fun i hi => ?_⟩
  · rw [laneOf_of_le h]
    rfl
  · subst hi
    rw [laneOf_val]
    dsimp only
    exact ⟨fun h => by rw [if_pos h]; rfl, fun h => by rw [if_neg h]; rfl⟩

theorem vehicleNumber_some (s : State) (v : Nat) :
    vehicleNumber s (some v) = ((look s.vehicles v).map Vehicle.number).getD 0 := by
  rw [vehicleNumber, Option.bind_some]
  cases look s.vehicles v <;> rfl

theorem slotRecord_bound (s : State) (k : SlotIx) (b : Binding) (h : (s.slot k).binding = some b) :
    slotRecord s k = boundRecord s (s.slot k) b := by
  rw [slotRecord, h]

/-- The slots bound to a lane, by the lane of each binding. -/
theorem boundOn_eq (s : State) (i : LaneIx) :
    boundOn s i = allSlots.countP (fun k => decide ((s.slot k).binding.map Binding.lane = some i)) := by
  unfold boundOn
  congr 1
  funext k
  cases (s.slot k).binding with
  | none => rfl
  | some b => simp [Bool.beq_eq_decide_eq]

/-- Settles O32: each read request answers with its fields and changes nothing; the fields are those of the tables, code by code. -/
theorem readRequestsReturnRecords : Obligations.ReadRequestsReturnRecords := by
  refine ⟨fun s tag => ⟨fun number hq => ?_, readValidator_outcome s tag, readRanking_outcome s tag, fun hq => ?_,
    readLane_outcome s tag⟩, fun s k => ⟨fun hf => ?_, fun b hb => ?_⟩, fun s i l hl => ?_, fun p => ?_, rfl, fun f => rfl⟩
  · simp only [← vehicleFields_eq]
    exact readVehicle_outcome s tag number hq
  · simp only [exec, execReadSlots, show s.host.processor = .busy tag .readSlots from hq]
    rfl
  · rw [slotRecord, hf]
    rfl
  · rw [slotRecord_bound s k b hb, ← vehicleNumber_some]
    delta boundRecord
    congr
    cases b.step <;> rfl
  · subst hl
    rw [← boundOn_eq]
    delta laneRecord
    dsimp only
    congr
  · delta paramBytes
    congr

/-! ## The work list (R55 to R58, R60) -/

/-- A held generation is to be brought from the base when there is none or the base is above it (R55). -/
theorem blockItems_below {s : State} {b : BlockRecord} (hb : s.block = some b) {held : Option Nat}
    (h : held = none ∨ ∃ g, held = some g ∧ g < b.base) :
    blockItems s held = b.baseObject :: b.chain ∧ blockLag s held = b.head - b.base + 1 := by
  rcases h with rfl | ⟨g, rfl, hg⟩
  · simp [blockItems, blockLag, hb]
  · simp [blockItems, blockLag, hb, hg]

/-- From the base on, the deltas above the held generation are to be sent (R55). -/
theorem blockItems_above {s : State} {b : BlockRecord} (hb : s.block = some b) {g : Nat} (hg : b.base ≤ g) :
    blockItems s (some g) = b.chain.filter (fun d => decide (g < generationOf s d)) ∧ blockLag s (some g) = b.head - g := by
  simp [blockItems, blockLag, hb, Nat.not_lt.2 hg]

theorem fareItems_below {s : State} {f : FareRecord} (hf : s.fare = some f) {held : Option Nat}
    (h : held = none ∨ ∃ g, held = some g ∧ g < f.generation) : fareItems s held = [f.image] := by
  rcases h with rfl | ⟨g, rfl, hg⟩
  · simp [fareItems, hf]
  · simp [fareItems, hf, hg]

theorem fareItems_above {s : State} {f : FareRecord} (hf : s.fare = some f) {g : Nat} (hg : f.generation ≤ g) :
    fareItems s (some g) = [] := by
  simp [fareItems, hf, Nat.not_lt.2 hg]

theorem aheadOf_fare (s : State) (fare : Option Nat) :
    aheadOf fare (publishedFare s) = true ↔ ∃ g f, fare = some g ∧ s.fare = some f ∧ f.generation < g := by
  rw [aheadOf_iff, publishedFare]
  cases s.fare <;> simp

theorem aheadOf_block (s : State) (block : Option Nat) :
    aheadOf block (publishedHead s) = true ↔ ∃ g b, block = some g ∧ s.block = some b ∧ b.head < g := by
  rw [aheadOf_iff, publishedHead]
  cases s.block <;> simp

/-- Held generations written to an entry, with the two tests of AHEAD as they stand. -/
theorem writeHeld_eq {s : State} {i : Nat} {v : Validator} (hv : look s.validators i = some v) {fare block : Option Nat}
    {fareNew blockNew : Bool} (hf : (decide (fare ≠ v.heldFare) && aheadOf fare (publishedFare s)) = fareNew)
    (hb : (decide (block ≠ v.heldBlock) && aheadOf block (publishedHead s)) = blockNew) :
    writeHeld i fare block s =
      ({ s with validators := put s.validators i { v with
          heldFare := fare, heldBlock := block, work := workList s fare block, lag := blockLag s block,
          flags := { v.flags with ahead := v.flags.ahead || fareNew || blockNew } } },
        (if fareNew = true then aheadReport v.serial .fare fare (publishedFare s) else []) ++
        (if blockNew = true then aheadReport v.serial .block block (publishedHead s) else []) ++
        (if v.work ≠ [] ∧ workList s fare block = [] then
          [.validatorCurrent v.serial (vehicleNumber s v.vehicle) fare block] else [])) := by
  subst hf hb
  unfold writeHeld
  rw [hv]
  rfl

/-- Settles O34: the table of R55 case by case, then writeHeld, whose two tests of AHEAD are those of the statement. -/
theorem workListRule : Obligations.WorkListRule := by
  refine ⟨fun s heldFare heldBlock => ⟨fun hn => ?_, fun b hb => ⟨fun h => ?_, fun g hg h => ?_⟩, fun hn => ?_,
    fun f hf => ⟨fareItems_below hf, fun g hg h => hg ▸ fareItems_above hf h⟩⟩, ?_⟩
  · simp [workList, blockItems, blockLag, hn]
  · obtain ⟨items, lag⟩ := blockItems_below hb h
    rw [workList, items]
    exact ⟨rfl, lag⟩
  · obtain ⟨items, lag⟩ := blockItems_above (s := s) hb h
    rw [hg, workList, items]
    exact ⟨rfl, lag⟩
  · simp [fareItems, hn]
  · intro s i v fare block fareNew blockNew work hv hf hb hw
    subst hw
    rw [← aheadOf_fare] at hf
    rw [← aheadOf_block] at hb
    have fareTest : (decide (fare ≠ v.heldFare) && aheadOf fare (publishedFare s)) = fareNew := by
      rw [Bool.eq_iff_iff, hf, Bool.and_eq_true, decide_eq_true_iff]
    have blockTest : (decide (block ≠ v.heldBlock) && aheadOf block (publishedHead s)) = blockNew := by
      rw [Bool.eq_iff_iff, hb, Bool.and_eq_true, decide_eq_true_iff]
    rw [writeHeld_eq hv fareTest blockTest]
    have fareSent : (if fareNew = true then aheadReport v.serial .fare fare (publishedFare s) else []) =
        if fareNew = true then [.genAhead v.serial .fare (orZero fare) (orZero (s.fare.map FareRecord.generation))] else [] :=
      fareTest ▸ aheadReport_gated ..
    have blockSent : (if blockNew = true then aheadReport v.serial .block block (publishedHead s) else []) =
        if blockNew = true then [.genAhead v.serial .block (orZero block) (orZero (s.block.map BlockRecord.head))] else [] :=
      blockTest ▸ aheadReport_gated ..
    rw [fareSent, blockSent]

end Sys2Proof.Machine

/-! PROOFS. Departures (R46), the silence check (R44), the yard clock (R63) and SET_TIME (R64). -/

namespace Sys2Proof.Machine

/-! ## The roster when slots end without a delivery (R105, R107) -/

/-- An end condition that writes nothing to the validator but its slot (R107, step 1). -/
def SilentEnd (c : EndCond) : Prop := ∀ b s, settleValidator b c s = (s, [])

theorem silentEnd_vehicleGone : SilentEnd .vehicleGone := fun _ _ => rfl
theorem silentEnd_asleep : SilentEnd .asleep := fun _ _ => rfl
theorem silentEnd_moved : SilentEnd .moved := fun _ _ => rfl

/-- The entry of one validator is as it was but for its bound slot. -/
def SameValidatorAt (s t : State) (i : Nat) : Prop :=
  (∀ x, look s.validators i = some x → ∃ k, look t.validators i = some { x with boundSlot := k }) ∧
    (look s.validators i = none → look t.validators i = none)

theorem SameValidatorAt.of_eq {s t : State} {i : Nat} (h : look t.validators i = look s.validators i) : SameValidatorAt s t i :=
  ⟨fun x hx => ⟨x.boundSlot, h.trans hx⟩, fun hn => h.trans hn⟩

theorem SameValidatorAt.trans {s t u : State} {i : Nat} (h : SameValidatorAt s t i) (k : SameValidatorAt t u i) :
    SameValidatorAt s u i := by
  refine ⟨fun x hx => ?_, fun hn => k.2 (h.2 hn)⟩
  obtain ⟨_, hm⟩ := h.1 x hx
  obtain ⟨n, hn⟩ := k.1 _ hm
  exact ⟨n, hn⟩

/-- The validator records are as they were but for their bound slots. -/
def SameValidators (s t : State) : Prop := ∀ i, SameValidatorAt s t i

theorem SameValidators.refl (s : State) : SameValidators s s := fun _ => .of_eq rfl

theorem SameValidators.trans {s t u : State} (h : SameValidators s t) (k : SameValidators t u) : SameValidators s u :=
  fun i => (h i).trans (k i)

theorem reported_dropRef (o : Nat) (s : State) : Reported (retireReport (releaseRef o s) o) s (dropRef o s) :=
  (reported_modObject o _ s).trans (reported_retireIfUnused o _)

theorem unbindRoster_validators (b : Binding) (s : State) :
    (unbindRoster b s).validators = (modValidator b.validator unboundValidator s).validators := by
  simp [unbindRoster, unboundValidator_eq]

/-- The end of a binding without a delivery gives up the validator's slot, and no entry changes otherwise. -/
theorem endSlot_validators {c : EndCond} (hc : SilentEnd c) {k : SlotIx} {u : Bool} {s : State} {b : Binding}
    (h : (s.slot k).binding = some b) :
    (endSlot k c u s).validators = (modValidator b.validator unboundValidator s).validators := by
  obtain ⟨validators, _⟩ := endSlot_released (c := c) (u := u) h
  rw [validators, releasedState, (reported_dropRef _ _).validators, submitAll_validators, submit_validators, unboundState,
    modLane_validators, setSlot_validators, unbindRoster_validators, hc]

theorem sameValidators_endSlot {c : EndCond} (hc : SilentEnd c) (k : SlotIx) (u : Bool) (s : State) :
    SameValidators s (endSlot k c u s) := by
  cases h : (s.slot k).binding with
  | none => exact (endSlot_free k c u s h).symm ▸ SameValidators.refl s
  | some b =>
    intro i
    have ended := endSlot_validators hc (u := u) h
    cases hv : look s.validators b.validator with
    | none => exact .of_eq (by simp [ended, modValidator, hv])
    | some x =>
      rw [modValidator_of_look hv] at ended
      by_cases hi : i = b.validator
      · subst hi
        refine ⟨fun y e => ?_, fun e => by rw [hv] at e; cases e⟩
        rw [hv] at e
        cases e
        rw [ended]
        exact ⟨none, look_put_same ..⟩
      · refine .of_eq ?_
        rw [ended]
        exact look_put_other _ _ _ _ hi

theorem sameValidators_endSlotsWhere {c : EndCond} (hc : SilentEnd c) (which : Binding → Bool) (s : State) :
    SameValidators s (endSlotsWhere which c s) := by
  rw [endSlotsWhere_eq]
  generalize allSlots = l
  induction l generalizing s with
  | nil => exact SameValidators.refl s
  | cons k l ih =>
    refine SameValidators.trans ?_ (ih (endIf which c s k))
    unfold endIf
    split
    · exact SameValidators.refl s
    · split
      · exact sameValidators_endSlot hc k false s
      · exact SameValidators.refl s

/-- A vehicle none of whose slots is picked keeps its record. -/
theorem endSlotsWhere_vehicle_other {which : Binding → Bool} {v : Nat} (h : ∀ b, which b = true → b.vehicle ≠ v) (c : EndCond)
    (s : State) : look (endSlotsWhere which c s).vehicles v = look s.vehicles v := by
  rw [endSlotsWhere_eq]
  generalize allSlots = l
  induction l generalizing s with
  | nil => rfl
  | cons k l ih =>
    rw [List.foldl_cons, ih]
    unfold endIf
    split
    · rfl
    · rename_i b hb
      split
      · rename_i hw
        rw [(endSlot_effect k c false s b hb).vehicles]
        cases hq : look s.vehicles b.vehicle with
        | none => simp [modVehicle, hq]
        | some q =>
          rw [modVehicle_of_look hq]
          exact look_put_other _ _ _ _ (h b hw).symm
      · rfl

/-! ## A departure (R46) -/

theorem endVehicleSlots_ended (v : Nat) (c : EndCond) (s : State) :
    SlotsEnded (fun b => b.vehicle = v) c s (endVehicleSlots v c s) := by
  have ended := slotsEnded_endSlotsWhere (fun b => b.vehicle == v) c s
  simp only [beq_iff_eq] at ended
  exact ended

theorem sameVehicles_endVehicleSlots (v : Nat) (c : EndCond) (s : State) : SameVehicles s (endVehicleSlots v c s) :=
  (endSlotsWhere_effect ..).vehicles

theorem endVehicleSlots_unbound {v : Nat} {s : State} (h : ∀ k b, (s.slot k).binding = some b → b.vehicle ≠ v) (c : EndCond) :
    endVehicleSlots v c s = s :=
  endSlotsWhere_none _ c s (fun k b hb => beq_eq_false_iff_ne.2 (h k b hb))

theorem endVehicleSlots_silenceApplied (v : Nat) (c : EndCond) (s : State) :
    (endVehicleSlots v c s).silenceApplied = s.silenceApplied := by
  have rest := (endSlotsWhere_effect (fun b => b.vehicle == v) c s).rest
  unfold endVehicleSlots
  rw [rest]

/-- The validators behind, each looked up once. -/
theorem behindOf_eq (s : State) (ids : List Nat) : behindOf s ids = ids.filterMap (fun i => (look s.validators i).bind
    (fun x => if 0 < x.lag then some (i, x.serial, x.lag) else none)) := by
  unfold behindOf
  congr 1
  funext i
  cases look s.validators i <;> rfl

/-- The departure of a vehicle whose slots have ended, by the state they ended in. -/
theorem depart_eq {s w : State} {v : Nat} {r : Vehicle} (cause : DepartCause) (hr : look s.vehicles v = some r)
    (hw : endVehicleSlots v .vehicleGone s = w) :
    depart v cause s = missDeparture r.number (behindOf (modVehicle v (fun r => { r with state := .departed }) w) r.validators)
      (submit (.vehicleGone r.number r.lane r.state cause) (modVehicle v (fun r => { r with state := .departed }) w)) := by
  unfold depart
  rw [hr, hw]

theorem behindOf_congr {s t : State} (h : t.validators = s.validators) (ids : List Nat) : behindOf t ids = behindOf s ids := by
  unfold behindOf
  rw [h]

/-- A departure once the slots have ended: the record is DEPARTED and VEHICLE_GONE submitted, then those behind are reported. -/
theorem depart_of_look {s w : State} {v : Nat} {r q : Vehicle} (cause : DepartCause) (hr : look s.vehicles v = some r)
    (hw : endVehicleSlots v .vehicleGone s = w) (hq : look w.vehicles v = some q) :
    depart v cause s = missDeparture r.number (behindOf w r.validators)
      (submit (.vehicleGone r.number r.lane r.state cause) { w with vehicles := put w.vehicles v { q with state := .departed } }) := by
  rw [depart_eq cause hr hw, modVehicle_of_look hq, behindOf_congr (s := w) (by rfl)]

theorem missDeparture_foldl (number : Nat) {behind : List (Nat × Nat × Nat)} (h : behind ≠ []) (s : State) :
    missDeparture number behind s = submit (.missedDeparture number (behind.map Prod.snd))
      (behind.foldl (fun t p => modValidator p.1 (fun x => { x with flags := { x.flags with missed := true } }) t) s) := if_neg h

/-- What the reports of a departure leave as it is. -/
structure OnlyMissed (s t : State) : Prop where
  slots : t.slots = s.slots
  vehicles : t.vehicles = s.vehicles
  silenceApplied : t.silenceApplied = s.silenceApplied

theorem onlyMissed_missDeparture (number : Nat) (behind : List (Nat × Nat × Nat)) (s : State) :
    OnlyMissed s (missDeparture number behind s) := by
  have marked : ∀ t : State, OnlyMissed t (behind.foldl (fun t p => modValidator p.1 setMissed t) t) := by
    induction behind with
    | nil => exact fun t => ⟨rfl, rfl, rfl⟩
    | cons p l ih =>
      intro t
      have later := ih (modValidator p.1 setMissed t)
      exact ⟨later.slots.trans (by simp), later.vehicles.trans (by simp), later.silenceApplied.trans (by simp)⟩
  unfold missDeparture
  split
  · exact ⟨rfl, rfl, rfl⟩
  · exact ⟨(submit_slots ..).trans (marked s).slots, (submit_vehicles ..).trans (marked s).vehicles,
      (submit_silenceApplied ..).trans (marked s).silenceApplied⟩

/-- What a departure does to slots and vehicle records. -/
theorem depart_effect {s : State} {v : Nat} {r : Vehicle} (cause : DepartCause) (hr : look s.vehicles v = some r) :
    (∀ k, (depart v cause s).slot k = (endVehicleSlots v .vehicleGone s).slot k) ∧
    (depart v cause s).silenceApplied = s.silenceApplied ∧
    (∃ n, look (depart v cause s).vehicles v = some { r with boundSlots := n, state := .departed }) ∧
    (∀ w, w ≠ v → look (depart v cause s).vehicles w = look s.vehicles w) := by
  obtain ⟨n, hn⟩ := (sameVehicles_endVehicleSlots v .vehicleGone s v).1 r hr
  have applied := endVehicleSlots_silenceApplied v .vehicleGone s
  have others : ∀ x, x ≠ v → look (endVehicleSlots v .vehicleGone s).vehicles x = look s.vehicles x := fun x hx =>
    endSlotsWhere_vehicle_other (fun b hb e => hx (e.symm.trans (beq_iff_eq.1 hb))) _ s
  generalize hw : endVehicleSlots v .vehicleGone s = w at hn applied others ⊢
  rw [depart_of_look cause hr hw hn]
  have missed := onlyMissed_missDeparture r.number (behindOf w r.validators)
    (submit (.vehicleGone r.number r.lane r.state cause) { w with
      vehicles := put w.vehicles v { r with boundSlots := n, state := .departed } })
  refine ⟨fun k => ?_, ?_, ⟨n, ?_⟩, fun x hx => ?_⟩
  · unfold State.slot
    rw [missed.slots, submit_slots]
  · rw [missed.silenceApplied, submit_silenceApplied]
    exact applied
  · rw [missed.vehicles, submit_vehicles]
    exact look_put_same ..
  · rw [missed.vehicles, submit_vehicles]
    dsimp only
    rw [look_put_other _ _ _ _ hx]
    exact others x hx

/-- No slot of a vehicle is bound once its slots have ended. -/
theorem endVehicleSlots_unbinds {v : Nat} {c : EndCond} {s : State} {k : SlotIx} {b : Binding}
    (h : ((endVehicleSlots v c s).slot k).binding = some b) : b.vehicle ≠ v := by
  rintro rfl
  obtain ⟨ended, stays⟩ := endVehicleSlots_ended b.vehicle c s k
  cases hb : (s.slot k).binding with
  | none =>
    rw [stays (fun b' e => by rw [hb] at e; cases e), hb] at h
    cases h
  | some b' =>
    by_cases e : b'.vehicle = b.vehicle
    · rw [ended b' hb e] at h
      cases h
    · rw [stays (fun b'' e' => by rw [hb] at e'; cases e'; exact e), hb] at h
      cases h
      exact e rfl

/-- A departure once the slots have ended, by whether a validator of the vehicle is behind (R46). -/
theorem depart_outcome {s w u : State} {v : Nat} {r q : Vehicle} {behind : List (Nat × Nat × Nat)} (cause : DepartCause)
    (hr : look s.vehicles v = some r) (hw : endVehicleSlots v .vehicleGone s = w) (hq : look w.vehicles v = some q)
    (hb : behind = r.validators.filterMap (fun i => (look w.validators i).bind
      (fun x => if 0 < x.lag then some (i, x.serial, x.lag) else none)))
    (hu : u = submit (.vehicleGone r.number r.lane r.state cause) { w with vehicles := put w.vehicles v { q with state := .departed } }) :
    (behind = [] → depart v cause s = u) ∧
    (behind ≠ [] → depart v cause s = submit (.missedDeparture r.number (behind.map Prod.snd))
      (behind.foldl (fun t p => modValidator p.1 (fun x => { x with flags := { x.flags with missed := true } }) t) u)) := by
  rw [← behindOf_eq] at hb
  rw [depart_of_look cause hr hw hq, ← hb, ← hu]
  exact ⟨fun none => if_pos none, fun some => missDeparture_foldl _ some _⟩

/-- Settles O30: depart_outcome after the slots have ended, which does nothing when none is bound. -/
theorem departureEffects : Obligations.DepartureEffects := by
  intro s v r cause hr
  obtain ⟨slots, _, ⟨n, record⟩, _⟩ := depart_effect cause hr
  refine ⟨fun k b hb => ?_, ⟨_, record, rfl, rfl, rfl, rfl, rfl, rfl⟩, fun behind u free hb hu => ?_, fun behind q w u hw hq hb hu => ?_⟩
  · rw [slots] at hb
    exact endVehicleSlots_unbinds hb
  · exact depart_outcome cause hr (endVehicleSlots_unbound free .vehicleGone) hr hb hu
  · obtain ⟨m, hm⟩ := (sameVehicles_endVehicleSlots v .vehicleGone s v).1 r hr
    have ended := endVehicleSlots_ended v .vehicleGone s
    rw [← hw] at hm ended
    rw [hm] at hq
    cases hq
    exact ⟨ended, ⟨m, rfl⟩, depart_outcome cause hr hw.symm hm hb hu⟩

/-! ## The silence check (R44) -/

theorem silenceCheck_stays {s : State} {v : Nat} {r : Vehicle} (hr : look s.vehicles v = some r)
    (h : r.state ≠ .present ∨ s.clock.count - r.lastHeard < s.silenceApplied) : silenceCheck s v = s := by
  rw [silenceCheck, hr]
  exact if_neg fun k => h.elim (fun e => e k.1) (fun e => Nat.not_le.2 e k.2)

theorem silenceCheck_departs {s : State} {v : Nat} {r : Vehicle} (hr : look s.vehicles v = some r) (h : r.state = .present)
    (late : s.silenceApplied ≤ s.clock.count - r.lastHeard) : silenceCheck s v = depart v .silence s := by
  rw [silenceCheck, hr]
  exact if_pos ⟨h, late⟩

/-- The check of one vehicle leaves the others, the clock and the limit as they are. -/
theorem silenceCheck_leaves (s : State) (v : Nat) : (silenceCheck s v).clock = s.clock ∧
    (silenceCheck s v).silenceApplied = s.silenceApplied ∧
    ∀ w, w ≠ v → look (silenceCheck s v).vehicles w = look s.vehicles w := by
  refine ⟨(inside_silenceCheck s v).clock, ?_⟩
  unfold silenceCheck
  split
  · exact ⟨rfl, fun _ _ => rfl⟩
  · rename_i r hr
    split
    · obtain ⟨_, limit, _, others⟩ := depart_effect .silence hr
      exact ⟨limit, others⟩
    · exact ⟨rfl, fun _ _ => rfl⟩

theorem silenceChecks_other (l : List Nat) {w : Nat} (h : w ∉ l) (s : State) :
    look (l.foldl silenceCheck s).vehicles w = look s.vehicles w := by
  induction l generalizing s with
  | nil => rfl
  | cons v l ih =>
    rw [List.mem_cons, not_or] at h
    rw [List.foldl_cons, ih h.2, (silenceCheck_leaves s v).2.2 w h.1]

theorem silenceChecks_applied (l : List Nat) (s : State) : (l.foldl silenceCheck s).silenceApplied = s.silenceApplied := by
  induction l generalizing s with
  | nil => rfl
  | cons v l ih => rw [List.foldl_cons, ih, (silenceCheck_leaves s v).2.1]

/-- Each vehicle of the list is checked once, with its record, the clock and the limit as they were at first. -/
theorem silenceChecks_one {l : List Nat} (hl : l.Nodup) {v : Nat} (hv : v ∈ l) (s : State) :
    ∃ u : State, look u.vehicles v = look s.vehicles v ∧ u.clock = s.clock ∧ u.silenceApplied = s.silenceApplied ∧
      look (l.foldl silenceCheck s).vehicles v = look (silenceCheck u v).vehicles v := by
  induction l generalizing s with
  | nil => cases hv
  | cons x l ih =>
    obtain ⟨fresh, hl⟩ := List.nodup_cons.1 hl
    by_cases e : v = x
    · subst e
      exact ⟨s, rfl, rfl, rfl, silenceChecks_other l fresh _⟩
    · obtain ⟨clock, applied, others⟩ := silenceCheck_leaves s x
      obtain ⟨u, h1, h2, h3, h4⟩ := ih hl ((List.mem_cons.1 hv).resolve_left e) (silenceCheck s x)
      exact ⟨u, h1.trans (others v e), h2.trans clock, h3.trans applied, h4⟩

theorem keys_nodup {α : Type} {cap : Nat} {t : Table α} (h : tableWf cap 0 t = true) : (keys t).Nodup :=
  List.pairwise_map.2 ((keys_lt cap t 0 h).imp Nat.ne_of_lt)

theorem mem_keys_of_look {α : Type} {t : Table α} {k : Nat} {a : α} (h : look t k = some a) : k ∈ keys t := by
  induction t with
  | nil => cases h
  | cons p t ih =>
    obtain ⟨i, b⟩ := p
    rw [look] at h
    split at h
    · rename_i e
      exact e ▸ List.mem_cons_self
    · exact List.mem_cons_of_mem _ (ih h)

theorem not_mem_keys {α : Type} {t : Table α} {k : Nat} (h : look t k = none) : k ∉ keys t := fun hk => by
  obtain ⟨a, ha⟩ := look_of_mem_keys t k hk
  rw [h] at ha
  cases ha

theorem silenceCheckAll_unset {s : State} (h : s.clock.unset = true) : silenceCheckAll s = s := if_pos h

theorem silenceCheckAll_eq {s : State} (h : s.clock.unset = false) :
    silenceCheckAll s = (keys s.vehicles).foldl silenceCheck { s with silenceApplied := s.policy.silenceLimit } :=
  if_neg (by simp [h])

theorem exec_yardClockTick (s : State) : exec .yardClockTick s =
    .next (chooseAll (if countOn s.clock.count = s.clock.count then
        { s with now := max s.now s.clock.nextSecond, clock := ⟨countOn s.clock.count, s.clock.unset, s.clock.nextSecond + 1000000⟩ }
      else silenceCheckAll { s with
        now := max s.now s.clock.nextSecond, clock := ⟨countOn s.clock.count, s.clock.unset, s.clock.nextSecond + 1000000⟩ })) := rfl

/-- The silence check of the whole roster: who departs, who stays, and the check itself as one departure after the other. -/
theorem silenceCheckAll_outcome {s : State} (roster : RosterOk s) (set : s.clock.unset = false) :
    (silenceCheckAll s).silenceApplied = s.policy.silenceLimit ∧
    (∀ v r, look s.vehicles v = some r →
      (r.state = .present → s.policy.silenceLimit ≤ s.clock.count - r.lastHeard →
        ∃ n, look (silenceCheckAll s).vehicles v = some { r with boundSlots := n, state := .departed }) ∧
      (r.state ≠ .present ∨ s.clock.count - r.lastHeard < s.policy.silenceLimit →
        look (silenceCheckAll s).vehicles v = some r)) ∧
    (∀ v, look s.vehicles v = none → look (silenceCheckAll s).vehicles v = none) := by
  rw [silenceCheckAll_eq set]
  refine ⟨silenceChecks_applied .., fun v r hr => ?_, fun v hn => ?_⟩
  · obtain ⟨u, vehicles, clock, applied, e⟩ := silenceChecks_one (keys_nodup roster.1) (mem_keys_of_look hr)
      { s with silenceApplied := s.policy.silenceLimit }
    have hu : look u.vehicles v = some r := vehicles.trans hr
    rw [e]
    refine ⟨fun h late => ?_, fun h => ?_⟩
    · rw [silenceCheck_departs hu h (by rw [applied, clock]; exact late)]
      exact (depart_effect .silence hu).2.2.1
    · rw [silenceCheck_stays hu (by rw [applied, clock]; exact h), hu]
  · exact (silenceChecks_other _ (not_mem_keys hn) _).trans hn

/-- Settles O31: the tick by whether the count can go on, one vehicle by silenceCheck, and the roster by silenceCheckAll_outcome. -/
theorem clockAndSilence : Obligations.ClockAndSilence := by
  refine ⟨fun s u below hu => ?_, fun s full => ?_, fun s v r hr => ⟨fun unset => ?_, fun set => ⟨fun h late => ?_, fun h => ?_⟩⟩,
    fun s => silenceCheckAll_unset, fun s t roster set ht => ?_⟩
  · have count : countOn s.clock.count = s.clock.count + 1 := if_pos below
    rw [exec_yardClockTick, count, if_neg (by omega), ← hu]
    refine ⟨fun unset => ?_, fun _ => rfl⟩
    rw [silenceCheckAll_unset (by rw [hu]; exact unset)]
  · have count : countOn s.clock.count = s.clock.count := if_neg (by rw [full]; exact lt_irrefl _)
    rw [exec_yardClockTick, count, if_pos rfl, full]
  · simp [exec, execSilenceLimitReached, unset]
  · simp [exec, execSilenceLimitReached, set, silenceCheck_departs hr h late]
  · simp [exec, execSilenceLimitReached, set, silenceCheck_stays hr h]
  · subst ht
    obtain ⟨applied, records, unused⟩ := silenceCheckAll_outcome roster set
    refine ⟨applied, inside_silenceCheckAll s, fun v r hr => ?_, unused, silenceCheckAll_eq set⟩
    obtain ⟨departs, stays⟩ := records v r hr
    refine ⟨fun h late => ?_, stays⟩
    obtain ⟨n, hn⟩ := departs h late
    exact ⟨_, hn, rfl, rfl, rfl, rfl, rfl, rfl⟩

/-! ## SET_TIME (R44, R64) -/

/-- Every entry of `t` is one of `s` with the same last-heard time. -/
structure SameHeard (s t : State) : Prop where
  vehicles : ∀ v r, look t.vehicles v = some r → ∃ q, look s.vehicles v = some q ∧ r.lastHeard = q.lastHeard
  validators : ∀ i x, look t.validators i = some x → ∃ y, look s.validators i = some y ∧ x.lastHeard = y.lastHeard

theorem SameHeard.of_eq {s t : State} (hv : t.vehicles = s.vehicles) (hu : t.validators = s.validators) : SameHeard s t :=
  ⟨fun _ r h => ⟨r, hv ▸ h, rfl⟩, fun _ x h => ⟨x, hu ▸ h, rfl⟩⟩

theorem SameHeard.refl (s : State) : SameHeard s s := .of_eq rfl rfl

theorem SameHeard.trans {s t u : State} (h : SameHeard s t) (k : SameHeard t u) : SameHeard s u where
  vehicles v r hr := by
    obtain ⟨q, hq, e⟩ := k.vehicles v r hr
    obtain ⟨p, hp, e'⟩ := h.vehicles v q hq
    exact ⟨p, hp, e.trans e'⟩
  validators i x hx := by
    obtain ⟨y, hy, e⟩ := k.validators i x hx
    obtain ⟨z, hz, e'⟩ := h.validators i y hy
    exact ⟨z, hz, e.trans e'⟩

theorem SameHeard.foldl {α : Type} (f : State → α → State) (hf : ∀ t a, SameHeard t (f t a)) (l : List α) (s : State) :
    SameHeard s (l.foldl f s) := by
  induction l generalizing s with
  | nil => exact SameHeard.refl s
  | cons a l ih => exact (hf s a).trans (ih (f s a))

/-- An entry in use that is replaced by one with the same last-heard time. -/
theorem heard_put {α : Type} {heard : α → Nat} {t : Table α} {k : Nat} {a b : α} (ha : look t k = some a) (h : heard b = heard a)
    (j : Nat) (c : α) (hc : look (put t k b) j = some c) : ∃ d, look t j = some d ∧ heard c = heard d := by
  by_cases e : j = k
  · subst e
    rw [look_put_same] at hc
    cases hc
    exact ⟨a, ha, h⟩
  · rw [look_put_other _ _ _ _ e] at hc
    exact ⟨c, hc, rfl⟩

theorem sameHeard_modVehicle (v : Nat) (f : Vehicle → Vehicle) (hf : ∀ r, (f r).lastHeard = r.lastHeard) (s : State) :
    SameHeard s (modVehicle v f s) := by
  cases hr : look s.vehicles v with
  | none => simpa [modVehicle, hr] using SameHeard.refl s
  | some r =>
    rw [modVehicle_of_look hr]
    exact ⟨heard_put hr (hf r), fun _ x h => ⟨x, h, rfl⟩⟩

theorem sameHeard_modValidator (i : Nat) (f : Validator → Validator) (hf : ∀ x, (f x).lastHeard = x.lastHeard) (s : State) :
    SameHeard s (modValidator i f s) := by
  cases hx : look s.validators i with
  | none => simpa [modValidator, hx] using SameHeard.refl s
  | some x =>
    rw [modValidator_of_look hx]
    exact ⟨fun _ r h => ⟨r, h, rfl⟩, heard_put hx (hf x)⟩

theorem sameHeard_submit (b : ReportBody) (s : State) : SameHeard s (submit b s) :=
  .of_eq (submit_vehicles ..) (submit_validators ..)

theorem sameHeard_endVehicleSlots {c : EndCond} (hc : SilentEnd c) (v : Nat) (s : State) :
    SameHeard s (endVehicleSlots v c s) where
  vehicles w r hr := by
    have same := sameVehicles_endVehicleSlots v c s w
    cases hq : look s.vehicles w with
    | none =>
      rw [same.2 hq] at hr
      cases hr
    | some q =>
      obtain ⟨n, hn⟩ := same.1 q hq
      rw [hn] at hr
      cases hr
      exact ⟨q, rfl, rfl⟩
  validators i x hx := by
    have same := sameValidators_endSlotsWhere hc (fun b => b.vehicle == v) s i
    rw [endVehicleSlots] at hx
    cases hy : look s.validators i with
    | none =>
      rw [same.2 hy] at hx
      cases hx
    | some y =>
      obtain ⟨k, hk⟩ := same.1 y hy
      rw [hk] at hx
      cases hx
      exact ⟨y, rfl, rfl⟩

theorem sameHeard_missDeparture (n : Nat) (b : List (Nat × Nat × Nat)) (s : State) : SameHeard s (missDeparture n b s) := by
  unfold missDeparture
  split
  · exact SameHeard.refl s
  · exact (SameHeard.foldl _ (fun t p => sameHeard_modValidator p.1 setMissed (fun _ => rfl) t) b s).trans (sameHeard_submit ..)

theorem sameHeard_depart (v : Nat) (c : DepartCause) (s : State) : SameHeard s (depart v c s) := by
  cases hr : look s.vehicles v with
  | none => simpa [depart, hr] using SameHeard.refl s
  | some r =>
    have ended := sameHeard_endVehicleSlots silentEnd_vehicleGone v s
    generalize hw : endVehicleSlots v .vehicleGone s = w at ended
    rw [depart_eq c hr hw]
    have departed := sameHeard_modVehicle v (fun r => { r with state := .departed }) (fun _ => rfl) w
    exact ((ended.trans departed).trans (sameHeard_submit _ _)).trans (sameHeard_missDeparture _ _ _)

theorem sameHeard_silenceCheck (s : State) (v : Nat) : SameHeard s (silenceCheck s v) := by
  unfold silenceCheck
  split
  · exact SameHeard.refl s
  · split
    · exact sameHeard_depart ..
    · exact SameHeard.refl s

theorem sameHeard_silenceCheckAll (s : State) : SameHeard s (silenceCheckAll s) := by
  unfold silenceCheckAll
  split
  · exact SameHeard.refl s
  · refine SameHeard.trans ?_ (SameHeard.foldl silenceCheck sameHeard_silenceCheck _ _)
    exact SameHeard.of_eq (by rfl) (by rfl)

/-- The state of SET_TIME before the silence check (R44, R64). -/
def timeSet (time : Nat) (s : State) : State := { s with
  clock := ⟨time, false, s.now + 1000000⟩,
  vehicles := if s.clock.unset = true then s.vehicles.map (fun p => (p.1, { p.2 with lastHeard := time })) else s.vehicles,
  validators := if s.clock.unset = true then s.validators.map (fun p => (p.1, { p.2 with lastHeard := time })) else s.validators }

theorem setTime_eq (time : Nat) (s : State) :
    setTime time s = if time = s.clock.count then timeSet time s else silenceCheckAll (timeSet time s) := by
  have stamped : (if s.clock.unset = true then restamp time { s with clock := ⟨time, false, s.now + millis 1000⟩ }
      else { s with clock := ⟨time, false, s.now + millis 1000⟩ }) = timeSet time s := by
    unfold timeSet
    cases s.clock.unset <;> rfl
  unfold setTime
  dsimp only
  rw [stamped]

/-- The first SET_TIME after a reset gives every entry its time. -/
theorem timeSet_heard {time : Nat} {s : State} (unset : s.clock.unset = true) :
    (∀ v r, look (timeSet time s).vehicles v = some r → r.lastHeard = time) ∧
    (∀ i x, look (timeSet time s).validators i = some x → x.lastHeard = time) := by
  simp only [timeSet, unset, if_true]
  refine ⟨fun v r hr => ?_, fun i x hx => ?_⟩
  · rw [look_mapEntries (fun r : Vehicle => { r with lastHeard := time })] at hr
    obtain ⟨q, _, rfl⟩ := Option.map_eq_some_iff.1 hr
    rfl
  · rw [look_mapEntries (fun x : Validator => { x with lastHeard := time })] at hx
    obtain ⟨y, _, rfl⟩ := Option.map_eq_some_iff.1 hx
    rfl

/-- SET_TIME leaves scanner and policy as they are and every entry with the last-heard time it was given. -/
theorem setTime_leaves (time : Nat) (s : State) : (setTime time s).clock = ⟨time, false, s.now + 1000000⟩ ∧
    (setTime time s).scanner = s.scanner ∧ (setTime time s).policy = s.policy ∧ SameHeard (timeSet time s) (setTime time s) := by
  rw [setTime_eq]
  split
  · exact ⟨rfl, rfl, rfl, SameHeard.refl _⟩
  · have inside := inside_silenceCheckAll (timeSet time s)
    exact ⟨inside.clock, inside.scanner, inside.policy, sameHeard_silenceCheckAll _⟩

/-- Settles O35: SET_TIME is setTime, its reply and the choice points; the last-heard times by timeSet_heard and SameHeard. -/
theorem setTimeSetsTheClock : Obligations.SetTimeSetsTheClock := by
  intro s u tag time hq hu
  have e : exec .setTime s = .next (chooseAll (replied 0x96 tag .ok (leBytes 4 s.clock.count ++ boolByte s.clock.unset)
      (setTime time s))) := by
    simp only [exec, execSetTime, show s.host.processor = .busy tag (.setTime time) from hq]
    rfl
  change u = timeSet time s at hu
  subst hu
  rw [e]
  obtain ⟨clock, scanner, policy, heard⟩ := setTime_leaves time s
  have chosen := chosen_chooseAll (replied 0x96 tag .ok (leBytes 4 s.clock.count ++ boolByte s.clock.unset) (setTime time s))
  refine ⟨fun same => ?_, fun other => ?_, _, rfl, chosen.clock_eq.trans clock, chosen.scanner_eq.trans scanner,
    chosen.policy_eq.trans policy, ?_, ?_, fun unset => ⟨fun v r hr => ?_, fun i x hx => ?_⟩⟩
  · rw [setTime_eq, if_pos same]
  · rw [setTime_eq, if_neg other]
  · rw [chosen.host_eq]
    rfl
  · rw [chosen.host_eq]
    rfl
  · rw [chosen.vehicles_eq] at hr
    obtain ⟨q, hq, e⟩ := heard.vehicles v r hr
    exact e.trans ((timeSet_heard unset).1 v q hq)
  · rw [chosen.validators_eq] at hx
    obtain ⟨y, hy, e⟩ := heard.validators i x hx
    exact e.trans ((timeSet_heard unset).2 i y hy)

end Sys2Proof.Machine

/-! PROOFS. The beginning of a round (R45, R112 to R118, R129, R133). -/

namespace Sys2Proof.Machine

/-! ## The wake list (R117) -/

theorem liveEntry_look {s : State} {e : RankedEntry} {x : Validator} {v : Nat} {r : Vehicle} (h : liveEntry s e = some (x, v, r)) :
    look s.vehicles v = some r := by
  unfold liveEntry at h
  split at h
  · cases h
  · split at h
    · cases h
    · split at h
      · cases h
      · rename_i hr
        split at h
        · cases h
          exact hr
        · cases h

/-- Vehicles without repetition, each with a record in the state `st`. -/
def NodupIn (s : State) (st : VehicleState) (l : List Nat) : Prop :=
  l.Nodup ∧ ∀ v ∈ l, ∃ r, look s.vehicles v = some r ∧ r.state = st

theorem nodupIn_takeAsleep {s : State} {i : LaneIx} {l : List Nat} (h : NodupIn s .asleep l) (e : RankedEntry) :
    NodupIn s .asleep (takeAsleep s i l e) := by
  unfold takeAsleep
  split
  · exact h
  · rename_i x v r hl
    split
    · rename_i take
      obtain ⟨_, asleep, fresh⟩ := take
      have fresh : v ∉ l := by simpa using fresh
      refine ⟨List.nodup_append.2 ⟨h.1, List.nodup_singleton v, fun a ha b hb => ?_⟩, fun w hw => ?_⟩
      · rw [List.mem_singleton.1 hb]
        exact fun e => fresh (e ▸ ha)
      · rcases List.mem_append.1 hw with hw | hw
        · exact h.2 w hw
        · rw [List.mem_singleton.1 hw]
          exact ⟨r, liveEntry_look hl, asleep⟩
    · exact h

theorem nodupIn_asleep (s : State) (i : LaneIx) (ranked : List RankedEntry) :
    NodupIn s .asleep (ranked.foldl (takeAsleep s i) []) := by
  have start : NodupIn s .asleep [] := ⟨List.nodup_nil, fun _ h => absurd h List.not_mem_nil⟩
  generalize ([] : List Nat) = l at start
  induction ranked generalizing l with
  | nil => exact start
  | cons e ranked ih => exact ih _ (nodupIn_takeAsleep start e)

theorem insertExpected_perm (p : Nat × Vehicle) (l : List (Nat × Vehicle)) : (insertExpected p l).Perm (p :: l) := by
  induction l with
  | nil => exact List.Perm.refl _
  | cons q l ih =>
    rw [insertExpected]
    split
    · exact List.Perm.refl _
    · exact (ih.cons q).trans (List.Perm.swap p q l)

theorem insertAllExpected_perm (l : List (Nat × Vehicle)) : (l.foldr insertExpected []).Perm l := by
  induction l with
  | nil => exact List.Perm.refl _
  | cons p l ih => exact (insertExpected_perm p _).trans (ih.cons p)

theorem nodupIn_expectedOn {s : State} (roster : RosterOk s) (i : LaneIx) : NodupIn s .expected (expectedOn s i) := by
  have perm := (insertAllExpected_perm (s.vehicles.filter (fun p => p.2.lane == i && p.2.state == .expected))).map Prod.fst
  refine ⟨perm.nodup_iff.2 ((keys_nodup roster.1).sublist (List.filter_sublist.map Prod.fst)), fun v hv => ?_⟩
  obtain ⟨⟨w, r⟩, hr, rfl⟩ := List.mem_map.1 (perm.mem_iff.1 hv)
  obtain ⟨hr, expected⟩ := List.mem_filter.1 hr
  rw [Bool.and_eq_true, beq_iff_eq, beq_iff_eq] at expected
  exact ⟨r, (mem_iff_look _ _ _ _ 0 roster.1).1 hr, expected.2⟩

/-- No vehicle is named twice: none is both ASLEEP and EXPECTED. -/
theorem wakeList_nodup {s : State} (roster : RosterOk s) (i : LaneIx) : (wakeList s i).Nodup := by
  obtain ⟨asleepOnce, asleep⟩ := nodupIn_asleep s i s.scanner.ranked
  obtain ⟨expectedOnce, expected⟩ := nodupIn_expectedOn roster i
  refine (List.nodup_append.2 ⟨asleepOnce, expectedOnce, fun v hv w hw e => ?_⟩).sublist (List.take_sublist ..)
  subst e
  obtain ⟨r, hr, sleeping⟩ := asleep v hv
  obtain ⟨q, hq, due⟩ := expected v hw
  rw [hr] at hq
  cases hq
  rw [sleeping] at due
  cases due

/-! ## The wake attempts (R45, R118) -/

/-- A vehicle record whose wake attempts have risen, with the maximum in force. -/
def raised (maximum : Nat) (r : Vehicle) : Vehicle :=
  { r with wakeAttempts := r.wakeAttempts + 1, state := if maximum ≤ r.wakeAttempts + 1 then .unreachable else r.state }

/-- The reports of one wake attempt: VEHICLE_UNREACHABLE when it reaches the maximum. -/
def attemptReports (s : State) (v : Nat) : List ReportBody :=
  match look s.vehicles v with
  | none => []
  | some r => if s.policy.wakeMaximum ≤ r.wakeAttempts + 1
      then [.vehicleUnreachable r.number r.lane r.state (r.wakeAttempts + 1)] else []

theorem submit_rest (b : ReportBody) (s : State) : submit b s = { s with host := (submit b s).host } := by
  unfold submit
  split_ifs <;> rfl

theorem hostOnly_trans {s t u : State} (h : t = { s with host := t.host }) (k : u = { t with host := u.host }) :
    u = { s with host := u.host } := by
  rw [h] at k
  exact k

/-- Reports change nothing but the host link. -/
theorem submitAll_rest (bs : List ReportBody) (s : State) : submitAll bs s = { s with host := (submitAll bs s).host } := by
  induction bs generalizing s with
  | nil => rfl
  | cons b bs ih => exact hostOnly_trans (submit_rest b s) (ih (submit b s))

theorem raiseAttempts_of_look {s : State} {v : Nat} {r : Vehicle} (hr : look s.vehicles v = some r) :
    raiseAttempts s v = submitAll (attemptReports s v) { s with vehicles := put s.vehicles v (raised s.policy.wakeMaximum r) } := by
  unfold raiseAttempts attemptReports raised
  rw [hr]
  dsimp only
  split <;> rfl

theorem raiseAttempts_unused {s : State} {v : Nat} (hn : look s.vehicles v = none) : raiseAttempts s v = s := by
  rw [raiseAttempts, hn]

/-- The wake attempts of the vehicles of `l` have risen, each once. -/
structure AttemptsRaised (l : List Nat) (s t : State) : Prop where
  rest : t = { s with vehicles := t.vehicles, host := t.host }
  raised : ∀ v ∈ l, look t.vehicles v = (look s.vehicles v).map (raised s.policy.wakeMaximum)
  others : ∀ v, v ∉ l → look t.vehicles v = look s.vehicles v
  host : t.host = (submitAll (l.flatMap (attemptReports s)) s).host

theorem AttemptsRaised.policy {l : List Nat} {s t : State} (h : AttemptsRaised l s t) : t.policy = s.policy := by rw [h.rest]
theorem AttemptsRaised.clock {l : List Nat} {s t : State} (h : AttemptsRaised l s t) : t.clock = s.clock := by rw [h.rest]

theorem AttemptsRaised.lane {l : List Nat} {s t : State} (h : AttemptsRaised l s t) (i : LaneIx) : t.lane i = s.lane i := by
  rw [h.rest]
  rfl

theorem attemptsRaised_one (s : State) (v : Nat) : AttemptsRaised [v] s (raiseAttempts s v) := by
  cases hr : look s.vehicles v with
  | none =>
    rw [raiseAttempts_unused hr]
    exact ⟨rfl, fun w hw => by rw [List.mem_singleton.1 hw, hr]; rfl, fun _ _ => rfl, by simp [attemptReports, hr, submitAll]⟩
  | some r =>
    rw [raiseAttempts_of_look hr]
    refine ⟨?_, fun w hw => ?_, fun w hw => ?_, ?_⟩
    · rw [submitAll_rest]
    · rw [submitAll_vehicles, List.mem_singleton.1 hw, hr]
      exact look_put_same ..
    · rw [submitAll_vehicles]
      exact look_put_other _ _ _ _ (fun e => hw (List.mem_singleton.2 e))
    · rw [List.flatMap_singleton]
      exact submitAll_host_congr (by rfl) (by rfl) (by rfl) _

/-- Attempts raised one after another, for lists without a vehicle in common. -/
theorem AttemptsRaised.append {k l : List Nat} {s t u : State} (apart : ∀ v ∈ l, v ∉ k) (h : AttemptsRaised k s t)
    (h' : AttemptsRaised l t u) : AttemptsRaised (k ++ l) s u where
  rest := by
    have first := h.rest
    have second := h'.rest
    rw [first] at second
    exact second
  raised v hv := by
    by_cases hl : v ∈ l
    · rw [h'.raised v hl, h.others v (apart v hl), h.policy]
    · rw [h'.others v hl, h.raised v ((List.mem_append.1 hv).resolve_right hl)]
  others v hv := by
    rw [List.mem_append, not_or] at hv
    rw [h'.others v hv.2, h.others v hv.1]
  host := by
    have same : l.flatMap (attemptReports t) = l.flatMap (attemptReports s) := by
      refine List.flatMap_congr fun v hv => ?_
      unfold attemptReports
      rw [h.others v (apart v hv), h.policy]
    rw [List.flatMap_append, submitAll_append, h'.host, same]
    have rest := (rosterWork_submitAll (k.flatMap (attemptReports s)) s).rest
    exact submitAll_host_congr h.host (h.policy.trans (by rw [rest])) (h.clock.trans (by rw [rest])) _

theorem attemptsRaised_foldl {l : List Nat} (once : l.Nodup) (s : State) : AttemptsRaised l s (l.foldl raiseAttempts s) := by
  induction l generalizing s with
  | nil => exact ⟨rfl, fun _ h => absurd h List.not_mem_nil, fun _ _ => rfl, rfl⟩
  | cons v l ih =>
    obtain ⟨fresh, once⟩ := List.nodup_cons.1 once
    exact (attemptsRaised_one s v).append (fun w hw e => by
      rw [List.mem_singleton.1 e] at hw
      exact fresh hw) (ih once (raiseAttempts s v))

/-! ## The test of idleness (R129, R133) -/

theorem boundOn_eq_zero (s : State) (i : LaneIx) : boundOn s i = 0 ↔ ∀ k b, (s.slot k).binding = some b → b.lane ≠ i := by
  rw [boundOn_eq, List.countP_eq_zero]
  refine ⟨fun h k b hb e => h k (mem_allSlots k) (by simp [hb, e]), fun h k _ => ?_⟩
  cases hb : (s.slot k).binding with
  | none => simp
  | some b => simpa [hb] using h k b hb

theorem idleBase_iff (s : State) (i : LaneIx) : idleBase s i = true ↔
    (∀ k b, (s.slot k).binding = some b → b.lane ≠ i) ∧ (s.lane i).wake = [] ∧ (s.lane i).arrival = false ∧
      ¬((s.lane i).params.presence = .edgeLevel ∧ (s.lane i).lineAsserted = true) ∧ (s.lane i).burst = 0 := by
  rw [← boundOn_eq_zero]
  simp [idleBase, and_assoc, List.isEmpty_iff, imp_iff_not_or]

/-- Under the frame-wake mark an ACTIVE lane keeps its timer and its mark while it is idle but for its answers (R133). -/
theorem retestIdle_marked {s : State} {i : LaneIx} (active : (s.lane i).state = .active) (marked : (s.lane i).frameWake = true) :
    (idleBase s i = true → (retestIdle i s).lane i = s.lane i) ∧
    (idleBase s i ≠ true → (retestIdle i s).lane i = { s.lane i with quietTimer := .stopped, frameWake := false }) := by
  refine ⟨fun idle => ?_, fun busy => ?_⟩
  · simp [retestIdle, active, marked, idle]
  · simp [retestIdle, active, marked, busy]

/-- Without the mark the timer of an idle ACTIVE lane starts or goes on, that of another stops (R129). -/
theorem retestIdle_unmarked {s : State} {i : LaneIx} (active : (s.lane i).state = .active) (unmarked : (s.lane i).frameWake = false) :
    (idleBase s i = true ∧ (s.lane i).answers = [] → (retestIdle i s).lane i = { s.lane i with quietTimer :=
      (if (s.lane i).quietTimer = .stopped then startQuietTimer s.now (s.lane i) else (s.lane i).quietTimer) }) ∧
    (¬(idleBase s i = true ∧ (s.lane i).answers = []) → (retestIdle i s).lane i = { s.lane i with quietTimer := .stopped }) := by
  have idle_iff : laneIdle s i = true ↔ idleBase s i = true ∧ (s.lane i).answers = [] := by
    simp [laneIdle, active, List.isEmpty_iff, and_comm]
  rw [← idle_iff]
  refine ⟨fun idle => ?_, fun busy => ?_⟩
  · by_cases stopped : (s.lane i).quietTimer = .stopped
    · simp [retestIdle, unmarked, idle, stopped]
    · have same : retestIdle i s = s := by simp [retestIdle, unmarked, idle, stopped]
      rw [same, if_neg stopped]
  · simp [retestIdle, unmarked, busy]

/-! ## The round (R112 to R118) -/

/-- The lane record with which a round begins, before idleness is tested. -/
def roundLane (s : State) (i : LaneIx) (names : List Nat) : Lane :=
  let l := s.lane i
  let frame := beaconFrame s i (l.acks.take 8) names
  { l with state := .active, phase := .beacon, roundStart := s.now, rate := laneRate l.params.divisor,
           inLength := l.params.roundLength, inWindow := l.params.announceWindow, rollCallMade := false,
           acks := l.acks.drop 8, wake := names, reception := none, sent := some frame,
           deadline := s.now + sendMicros (laneRate l.params.divisor) (frameBytes frame) }

theorem beginRound_eq (i : LaneIx) (s : State) : beginRound i s = retestIdle i ((wakeList s i).foldl raiseAttempts
    (modLane i (fun _ => roundLane s i ((wakeList s i).map (fun v => vehicleNumber s (some v)))) s)) := rfl

/-- The bytes of a beacon: 25 with no acknowledgement and no wake entry, 2 and 4 for each of them (R115, R122). -/
theorem frameBytes_beaconFrame (s : State) (i : LaneIx) (acks wake : List Nat) :
    frameBytes (beaconFrame s i acks wake) = 25 + 2 * acks.length + 4 * wake.length := by
  have two : (acks.flatMap (leBytes 2)).length = 2 * acks.length := by
    simp [List.length_flatMap, leBytes_length, Nat.mul_comm]
  have four : (wake.flatMap wakeEntry).length = 4 * wake.length := by
    simp [List.length_flatMap, wakeEntry, leBytes_length, Nat.mul_comm]
  simp only [frameBytes, beaconFrame, depotState, List.length_append, leBytes_length, two, four]
  omega

theorem exec_lanePreambleEnd {s : State} {i : LaneIx} (h : (s.lane i).state = .starting) :
    exec (.lanePreambleEnd i) s = .next (beginRound i { s with now := max s.now (s.lane i).deadline }) := if_pos h

/-- Settles O45: the reports and records by attemptsRaised_foldl, the lane by roundLane, which the test of idleness leaves but for
timer and mark. -/
theorem roundBegins : Obligations.RoundBegins := by
  refine ⟨fun s i => exec_lanePreambleEnd, ?_⟩
  intro s t i l m names roster ht hl hm hnames
  subst hl hm ht
  rw [beginRound_eq, ← hnames]
  have attempts := attemptsRaised_foldl (wakeList_nodup roster i) (modLane i (fun _ => roundLane s i names) s)
  have inside := Inside.foldl raiseAttempts inside_raiseAttempts (wakeList s i) (modLane i (fun _ => roundLane s i names) s)
  generalize (wakeList s i).foldl raiseAttempts (modLane i (fun _ => roundLane s i names) s) = w at attempts inside ⊢
  have lane : w.lane i = roundLane s i names := by
    rw [attempts.lane, modLane_lane_same]
  have rest := retestIdle_rest i w
  have untimed := retestIdle_lane_untimed i w
  rw [lane] at untimed
  have field {α : Type} (f : Lane → α) (h : ∀ l : Lane, f l.untimed = f l) :
      f ((retestIdle i w).lane i) = f (roundLane s i names) := by
    rw [← h, untimed, h]
  refine ⟨⟨field (·.state) fun _ => rfl, field (·.phase) fun _ => rfl, field (·.roundStart) fun _ => rfl, field (·.rate) fun _ => rfl,
      field (·.inLength) fun _ => rfl, field (·.inWindow) fun _ => rfl, field (·.rollCallMade) fun _ => rfl, field (·.acks) fun _ => rfl,
      field (·.wake) fun _ => rfl, field (·.reception) fun _ => rfl⟩,
    ⟨field (·.params) fun _ => rfl, field (·.efficiency) fun _ => rfl, field (·.useful) fun _ => rfl, field (·.spent) fun _ => rfl,
      field (·.answers) fun _ => rfl, field (·.lastServed) fun _ => rfl, field (·.transaction) fun _ => rfl,
      field (·.doublingDue) fun _ => rfl, field (·.arrival) fun _ => rfl, field (·.burst) fun _ => rfl, field (·.fault) fun _ => rfl,
      field (·.breaks) fun _ => rfl⟩,
    ?sent, ?deadline, fun v r hr => ⟨fun hv => ?woken, fun hv => ?other⟩, fun j hj => ?lanes, ?slots, ?objects, ?validators, ?now, ?clock,
    ?link, ?host, fun free hfree => ?idle⟩
  case sent =>
    rw [field (·.sent) fun _ => rfl]
    simp only [roundLane, beaconFrame, depotState, List.length_take]
    rfl
  case deadline =>
    rw [field (·.deadline) fun _ => rfl]
    simp only [roundLane, sendMicros, frameBytes_beaconFrame, List.length_take]
    rfl
  case woken =>
    rw [rest]
    exact (attempts.raised v hv).trans (by rw [modLane_vehicles, hr]; rfl)
  case other =>
    rw [rest]
    exact (attempts.others v hv).trans hr
  case lanes =>
    rw [retestIdle_lane_other i j w hj, attempts.lane, modLane_lane_other i j _ s hj]
  case slots => rw [rest, attempts.rest]; rfl
  case objects => rw [rest, attempts.rest]; rfl
  case validators => rw [rest, attempts.rest]; rfl
  case now => rw [rest]; exact inside.now
  case clock => rw [rest]; exact inside.clock
  case link => rw [rest]; exact inside.link
  case host =>
    rw [rest]
    exact attempts.host.trans (submitAll_host_congr (by rfl) (by rfl) (by rfl) _)
  case idle =>
    have active : (w.lane i).state = .active := by rw [lane]; rfl
    have idle : free ↔ idleBase w i = true := by
      rw [hfree, idleBase_iff, lane, attempts.rest]
      rfl
    have now : w.now = s.now := inside.now
    refine ⟨fun marked => ?_, fun unmarked => ?_⟩
    · obtain ⟨keeps, stops⟩ := retestIdle_marked (s := w) active (by rw [lane]; exact marked)
      rw [idle]
      refine ⟨fun h => ?_, fun h => ?_⟩
      · rw [keeps h, lane]
        exact ⟨rfl, marked⟩
      · rw [stops h]
        exact ⟨rfl, rfl⟩
    · obtain ⟨starts, stops⟩ := retestIdle_unmarked (s := w) active (by rw [lane]; exact unmarked)
      rw [lane, now] at starts
      rw [lane] at stops
      rw [idle]
      refine ⟨?_, fun h => ?_, fun h => ?_⟩
      · by_cases h : idleBase w i = true ∧ (s.lane i).answers = []
        · rw [starts h]
          exact unmarked
        · rw [stops h]
          exact unmarked
      · rw [starts h]
        rfl
      · rw [stops h]

end Sys2Proof.Machine

/-! PROOFS. The refresh (R43), and an announce in its parts (R47 to R54). -/

namespace Sys2Proof.Machine

/-! ## The refresh by a good frame (R43) -/

theorem refresh_awake {s : State} {number v : Nat} {r : Vehicle} (hv : vehicleAt s number = some v) (hr : look s.vehicles v = some r)
    (h : r.state = .present ∨ r.state = .departed) :
    refresh number s = { s with vehicles := put s.vehicles v { r with lastHeard := s.clock.count } } := by
  rcases h with h | h <;> simp [refresh, hv, hr, h]

theorem refresh_arrives {s : State} {number v : Nat} {r : Vehicle} (hv : vehicleAt s number = some v) (hr : look s.vehicles v = some r)
    (h : r.state = .expected ∨ r.state = .asleep ∨ r.state = .unreachable) :
    refresh number s = submit (.vehicleArrived r.number r.lane r.validators.length) { s with
      vehicles := put s.vehicles v { r with lastHeard := s.clock.count, state := .present, wakeAttempts := 0 },
      dispatchDue := true } := by
  rcases h with h | h | h <;> simp [refresh, hv, hr, h]

/-! ## The form of an announce (R47) -/

theorem distinct_iff (l : List Nat) : distinct l = true ↔ l.Nodup := by
  induction l with
  | nil => simp [distinct]
  | cons a l ih => simp [distinct, ih]

theorem announceOk_iff (number : Nat) (items : List AnnounceItem) : announceOk number items = true ↔
    1 ≤ number ∧ number < 65535 ∧ 1 ≤ items.length ∧ items.length ≤ 4 ∧
      (∀ t ∈ items, t.serial ≠ 0 ∧ 1 ≤ t.position ∧ t.position ≤ 4) ∧ (items.map AnnounceItem.serial).Nodup ∧
      (items.map AnnounceItem.position).Nodup := by
  simp only [announceOk, Bool.and_eq_true, vehicleNumberOk_iff, distinct_iff, List.all_eq_true, decide_eq_true_eq, and_assoc]
  rfl

theorem announce_malformed {i : LaneIx} {number : Nat} {sleep : Bool} {items : List AnnounceItem} {s : State}
    (h : announceOk number items ≠ true) : announce i number sleep items s = s := if_neg h

/-! ## The vehicle of an announce (R47 to R50) -/

theorem announceRecord_known {s : State} {i : LaneIx} {number v : Nat} {r : Vehicle} (hv : vehicleAt s number = some v)
    (hr : look s.vehicles v = some r) : announceRecord i number s = some (v, some r.state, s) := by
  simp [announceRecord, hv, hr]

theorem announceRecord_new {s : State} {i : LaneIx} {number : Nat} (hn : vehicleAt s number = none) :
    announceRecord i number s = (roomForVehicle s).map (fun p => (p.1, none, { p.2 with
      vehicles := put p.2.vehicles p.1 ⟨number, i, .present, none, [], s.clock.count, 0, 0⟩ })) := by
  rw [announceRecord, hn]
  cases roomForVehicle s <;> rfl

/-- Announced record: last-heard time, wake attempts and state (R47). -/
def announcedVehicle (sleep : Bool) (now : Nat) (r : Vehicle) : Vehicle :=
  { r with lastHeard := now, wakeAttempts := 0, state := if sleep = true then .asleep else .present }

/-- The state after the record is written and, for a vehicle that falls asleep, its slots have ended (R47, R50). -/
def announcedState (sleep : Bool) (v : Nat) (before : Option VehicleState) (r : Vehicle) (s : State) : State :=
  let u := { s with vehicles := put s.vehicles v (announcedVehicle sleep s.clock.count r) }
  if sleep = true ∧ before = some .present then endVehicleSlots v .asleep u else u

/-- The record after the slot ends at falling asleep: only its count of bound slots may differ. -/
theorem announcedState_vehicle (sleep : Bool) (v : Nat) (before : Option VehicleState) (r : Vehicle) (s : State) :
    ∃ n, look (announcedState sleep v before r s).vehicles v = some { announcedVehicle sleep s.clock.count r with boundSlots := n } := by
  have written : look (put s.vehicles v (announcedVehicle sleep s.clock.count r)) v = some (announcedVehicle sleep s.clock.count r) :=
    look_put_same ..
  rw [announcedState]
  split
  · exact (sameVehicles_endVehicleSlots v .asleep _ v).1 _ written
  · exact ⟨_, written⟩

theorem announceVehicle_eq {s w : State} {i : LaneIx} {sleep : Bool} {v : Nat} {before : Option VehicleState} {r : Vehicle}
    (hr : look s.vehicles v = some r) (hw : announcedState sleep v before r s = w) :
    announceVehicle i sleep v before s =
      if r.lane = i then w else endVehicleSlots v .moved (modVehicle v (fun q => { q with lane := i }) w) := by
  obtain ⟨n, hn⟩ := announcedState_vehicle sleep v before r s
  have stored : modVehicle v (fun r => { r with
      lastHeard := s.clock.count, wakeAttempts := 0, state := if sleep then .asleep else .present }) s =
      { s with vehicles := put s.vehicles v (announcedVehicle sleep s.clock.count r) } := modVehicle_of_look hr _
  rw [hw] at hn
  rw [announceVehicle, stored]
  rw [announcedState] at hw
  rw [hw, hn]
  rfl

/-! ## The validators of an announce (R51 to R53) -/

theorem roomForValidator_unused {s : State} (h : lowestUnused 0 s.validators < 1024) :
    roomForValidator s = some (lowestUnused 0 s.validators, s) := if_pos h

theorem roomForValidator_full {s : State} (h : 1024 ≤ lowestUnused 0 s.validators) :
    roomForValidator s = (validatorToEvict s).map (fun p => (p.1, evictValidator p.1 p.2 s)) := by
  rw [roomForValidator, if_neg (by simpa [Config.validatorEntries] using h)]
  cases validatorToEvict s <;> rfl

theorem findOrCreate_known {s : State} {t : AnnounceItem} {j : Nat} (h : validatorAt s t.serial = some j) :
    findOrCreate t s = some (j, s) := by
  rw [findOrCreate, h]

theorem findOrCreate_new {s : State} {t : AnnounceItem} (h : validatorAt s t.serial = none) :
    findOrCreate t s = (roomForValidator s).map (fun p => (p.1, { p.2 with
      validators := put p.2.validators p.1 (newValidator t.serial t.position s.clock.count) })) := by
  rw [findOrCreate, h]
  cases roomForValidator s <;> rfl

/-- The entry of an item put under the announcing vehicle, moved from another one if need be (R51, step 2). -/
def placedEntry (v : Nat) (t : AnnounceItem) (now j : Nat) (u : State) : State :=
  modValidator j (fun x => { x with vehicle := some v, position := t.position, lastHeard := now }) (moveFrom v j u)

theorem announceOne_some {s u : State} {v number j : Nat} {taken : List (Nat × Nat)} {t : AnnounceItem}
    (h : findOrCreate t s = some (j, u)) (clock : u.clock = s.clock) :
    announceOne v number (s, taken) t =
      (submitAll (writeHeld j t.fare t.block (placedEntry v t s.clock.count j u)).2
        (writeHeld j t.fare t.block (placedEntry v t s.clock.count j u)).1, taken ++ [(t.position, j)]) := by
  have moved : (moveFrom v j u).clock = s.clock := (inside_moveFrom v j u).clock.trans clock
  rw [announceOne, h, placedEntry, ← moved]

theorem announceOne_none {s : State} {v number : Nat} {taken : List (Nat × Nat)} {t : AnnounceItem} (h : findOrCreate t s = none) :
    announceOne v number (s, taken) t = (validatorTableFull number t.serial s, taken) := by
  rw [announceOne, h]

theorem moveFrom_own {s : State} {v j : Nat} {x : Validator} (hx : look s.validators j = some x)
    (h : x.vehicle = none ∨ x.vehicle = some v) : moveFrom v j s = s := by
  rw [moveFrom, hx]
  exact if_pos h

theorem moveFrom_other {s : State} {v j n : Nat} {x : Validator} (hx : look s.validators j = some x) (hn : x.vehicle = some n)
    (h : n ≠ v) : moveFrom v j s = endValidatorSlot j .moved (unlist j (some n) s) := by
  rw [moveFrom, hx]
  dsimp only
  rw [if_neg (by simpa [hn] using h), hn]

theorem onDeparted_iff (s : State) (x : Validator) : (onDeparted s x && x.boundSlot.isNone) = true ↔
    x.boundSlot = none ∧ ∃ n q, x.vehicle = some n ∧ look s.vehicles n = some q ∧ q.state = .departed := by
  have departed : onDeparted s x = true ↔ ∃ n q, x.vehicle = some n ∧ look s.vehicles n = some q ∧ q.state = .departed := by
    unfold onDeparted
    cases x.vehicle with
    | none => simp
    | some n => cases hq : look s.vehicles n <;> simp [hq]
  rw [Bool.and_eq_true, Option.isNone_iff_eq_none, and_comm, departed]

/-- The entry to be evicted: the oldest of the detached ones, if there is any (R52). -/
theorem oldest_detached {s : State} (h : RosterOk s) : Oldest Validator.lastHeard s.validators
    (fun x => x.vehicle = none ∧ x.boundSlot = none)
    (oldestBy Validator.lastHeard (s.validators.filter (fun p => p.2.vehicle.isNone && p.2.boundSlot.isNone))) :=
  oldest_filter Validator.lastHeard _ 0 s.validators _ _ h.2 (fun p => by simp)

theorem oldest_onDeparted {s : State} (h : RosterOk s) : Oldest Validator.lastHeard s.validators (fun x => x.boundSlot = none ∧
      ∃ n q, x.vehicle = some n ∧ look s.vehicles n = some q ∧ q.state = .departed)
    (oldestBy Validator.lastHeard (s.validators.filter (fun p => onDeparted s p.2 && p.2.boundSlot.isNone))) :=
  oldest_filter Validator.lastHeard _ 0 s.validators _ _ h.2 (fun p => onDeparted_iff s p.2)

theorem validatorToEvict_rule {s : State} (h : RosterOk s) :
    ((∃ j x, look s.validators j = some x ∧ x.vehicle = none ∧ x.boundSlot = none) →
      Oldest Validator.lastHeard s.validators (fun x => x.vehicle = none ∧ x.boundSlot = none) (validatorToEvict s)) ∧
    ((∀ j x, look s.validators j = some x → x.vehicle ≠ none ∨ x.boundSlot ≠ none) →
      Oldest Validator.lastHeard s.validators (fun x => x.boundSlot = none ∧
        ∃ n q, x.vehicle = some n ∧ look s.vehicles n = some q ∧ q.state = .departed) (validatorToEvict s)) := by
  have detached := oldest_detached h
  have departed := oldest_onDeparted h
  unfold validatorToEvict
  split
  · rename_i p hp
    rw [hp] at detached
    refine ⟨fun _ => detached, fun none => ?_⟩
    obtain ⟨hx, ⟨unlisted, unbound⟩, _⟩ := detached
    exact ((none _ _ hx).elim (fun h => h unlisted) (fun h => h unbound)).elim
  · rename_i hp
    rw [hp] at detached
    exact ⟨fun ⟨j, x, hx, free⟩ => (detached j x hx free).elim, fun _ => departed⟩

theorem insertPair_perm (p : Nat × Nat) (l : List (Nat × Nat)) : (insertPair p l).Perm (p :: l) := by
  induction l with
  | nil => exact List.Perm.refl _
  | cons q l ih =>
    rw [insertPair]
    split
    · exact List.Perm.refl _
    · exact (ih.cons q).trans (List.Perm.swap p q l)

theorem insertPair_sorted (p : Nat × Nat) {l : List (Nat × Nat)} (h : l.Pairwise (fun p q => p.1 ≤ q.1)) :
    (insertPair p l).Pairwise (fun p q => p.1 ≤ q.1) := by
  induction l with
  | nil => exact List.pairwise_singleton ..
  | cons q l ih =>
    obtain ⟨least, rest⟩ := List.pairwise_cons.1 h
    rw [insertPair]
    split
    · rename_i le
      refine List.pairwise_cons.2 ⟨fun x hx => ?_, h⟩
      rcases List.mem_cons.1 hx with rfl | hx
      · exact le
      · exact le.trans (least x hx)
    · rename_i gt
      refine List.pairwise_cons.2 ⟨fun x hx => ?_, ih rest⟩
      rcases List.mem_cons.1 ((insertPair_perm p l).mem_iff.1 hx) with rfl | hx
      · exact (Nat.lt_of_not_le gt).le
      · exact least x hx

theorem listedInOrder_sorted (taken : List (Nat × Nat)) : ∃ sorted : List (Nat × Nat), sorted.Perm taken ∧
    sorted.Pairwise (fun p q => p.1 ≤ q.1) ∧ listedInOrder taken = sorted.map Prod.snd := by
  refine ⟨taken.foldr insertPair [], ?_, ?_, rfl⟩
  · induction taken with
    | nil => exact List.Perm.refl _
    | cons p l ih => exact (insertPair_perm p _).trans (ih.cons p)
  · induction taken with
    | nil => exact List.Pairwise.nil
    | cons p l ih => exact insertPair_sorted p ih

/-! ## The end of an announce (R54, R116, R119) -/

theorem placeAck_eq (i : LaneIx) (number : Nat) (s : State) : placeAck i number s =
    if number ∉ (s.lane i).acks ∧ (s.lane i).acks.length < 32
      then { s with lanes := s.lanes.set i { s.lane i with acks := (s.lane i).acks ++ [number] } } else s := by
  have test : ((s.lane i).acks.contains number = false ∧ (s.lane i).acks.length < Config.ackPlaces) ↔
      (number ∉ (s.lane i).acks ∧ (s.lane i).acks.length < 32) := by simp [Config.ackPlaces]
  unfold placeAck
  split
  · rename_i h
    simp only [modLane, if_pos (test.2 h)]
  · rename_i h
    exact modLane_id _ _ _ (if_neg (mt test.1 h))

theorem announceEnd_arrived (i : LaneIx) (number n : Nat) (s : State) : announceEnd i number true n s =
    submit (.vehicleArrived number i n) (modLane i (fun l => { l with doublingDue := l.doublingDue || l.state == .active })
      (placeAck i number s)) := rfl

/-! ## The announce as a whole -/

theorem announce_unplaced {i : LaneIx} {number : Nat} {sleep : Bool} {items : List AnnounceItem} {s : State}
    (ok : announceOk number items = true) (h : announceRecord i number s = none) :
    announce i number sleep items s = vehicleTableFull number s := by
  rw [announce, if_pos ok, h]

theorem announce_placed {i : LaneIx} {number v : Nat} {sleep : Bool} {items : List AnnounceItem} {s u w d : State}
    {before : Option VehicleState} {r q : Vehicle} {handled : State × List (Nat × Nat)} {listed : List Nat}
    (ok : announceOk number items = true) (hu : announceRecord i number s = some (v, before, u))
    (hw : announceVehicle i sleep v before u = w) (hr : look w.vehicles v = some r)
    (hh : items.foldl (announceOne v number) (w, []) = handled) (hl : listedInOrder handled.2 = listed)
    (hd : detachAll (r.validators.filter (fun j => decide (j ∉ listed))) handled.1 = d) (hq : look d.vehicles v = some q) :
    announce i number sleep items s =
      { announceEnd i number (decide (before ≠ some .present ∧ sleep = false)) listed.length
          { d with vehicles := put d.vehicles v { q with validators := listed } } with dispatchDue := true } := by
  have left : r.validators.filter (fun j => listed.contains j = false) = r.validators.filter (fun j => decide (j ∉ listed)) := by
    simp
  have arrived : (decide (before ≠ some .present) && !sleep) = decide (before ≠ some .present ∧ sleep = false) := by
    cases sleep <;> simp
  rw [announce, if_pos ok, hu]
  dsimp only
  rw [hw, hr, hh, hl]
  dsimp only
  rw [left, hd, arrived, modVehicle_of_look hq]

end Sys2Proof.Machine

/-! PROOFS. An announce of known validators by a known vehicle (R47, R51 to R54), and the statement about refresh and announce. -/

namespace Sys2Proof.Machine

/-! ## The index of a serial (R40) -/

/-- In a table in order, the first entry that qualifies is the one with the lowest number. -/
theorem find_key_iff {α : Type} {t : Table α} (sorted : t.Pairwise (fun p q => p.1 < q.1)) (ok : α → Bool) (j : Nat) :
    (t.find? (fun p => ok p.2)).map Prod.fst = some j ↔
      (∃ a, (j, a) ∈ t ∧ ok a = true) ∧ ∀ k b, (k, b) ∈ t → ok b = true → j ≤ k := by
  induction t with
  | nil => simp
  | cons p t ih =>
    obtain ⟨i, a⟩ := p
    obtain ⟨least, rest⟩ := List.pairwise_cons.1 sorted
    by_cases h : ok a = true
    · rw [List.find?_cons_of_pos (p := fun p : Nat × α => ok p.2) h]
      constructor
      · intro e
        cases e
        refine ⟨⟨a, List.mem_cons_self, h⟩, fun k b hb _ => ?_⟩
        rcases List.mem_cons.1 hb with e | hb
        · cases e
          exact le_rfl
        · exact (least _ hb).le
      · rintro ⟨⟨b, hb, _⟩, first⟩
        have le := first i a List.mem_cons_self h
        rcases List.mem_cons.1 hb with e | hb
        · cases e
          rfl
        · exact absurd (least _ hb) (Nat.not_lt.2 le)
    · rw [List.find?_cons_of_neg (p := fun p : Nat × α => ok p.2) h, ih rest]
      have drop : ∀ k b, (k, b) ∈ (i, a) :: t → ok b = true → (k, b) ∈ t := fun k b hb hk => by
        rcases List.mem_cons.1 hb with e | hb
        · cases e
          exact absurd hk h
        · exact hb
      constructor
      · rintro ⟨⟨b, hb, hk⟩, first⟩
        exact ⟨⟨b, List.mem_cons_of_mem _ hb, hk⟩, fun k c hc hk => first k c (drop k c hc hk) hk⟩
      · rintro ⟨⟨b, hb, hk⟩, first⟩
        exact ⟨⟨b, drop j b hb hk, hk⟩, fun k c hc hk => first k c (List.mem_cons_of_mem _ hc) hk⟩

theorem validatorAt_iff {s : State} (roster : RosterOk s) (n j : Nat) : validatorAt s n = some j ↔
    (look s.validators j).map Validator.serial = some n ∧
      ∀ k, (look s.validators k).map Validator.serial = some n → j ≤ k := by
  have mem := fun k x => mem_iff_look _ s.validators k x 0 roster.2
  rw [validatorAt, find_key_iff (keys_lt _ _ _ roster.2) (fun x : Validator => x.serial == n)]
  simp only [mem, beq_iff_eq, Option.map_eq_some_iff, forall_exists_index, and_imp]

theorem validatorAt_look {s : State} (roster : RosterOk s) {n j : Nat} (h : validatorAt s n = some j) :
    ∃ z, look s.validators j = some z ∧ z.serial = n :=
  Option.map_eq_some_iff.1 ((validatorAt_iff roster n j).1 h).1

/-! ## What the handling of an announce keeps -/

/-- The handling of an announce's validators keeps the vehicle's record, the acknowledge lists and the serials. -/
structure AnnounceWork (v : Nat) (s t : State) : Prop where
  inside : Inside s t
  vehicle : ∀ r, look s.vehicles v = some r → ∃ n, look t.vehicles v = some { r with boundSlots := n }
  acks : ∀ i : LaneIx, (t.lane i).acks = (s.lane i).acks
  serials : ∀ j, (look t.validators j).map Validator.serial = (look s.validators j).map Validator.serial

theorem AnnounceWork.refl (v : Nat) (s : State) : AnnounceWork v s s :=
  ⟨Inside.refl s, fun r hr => ⟨r.boundSlots, hr⟩, fun _ => rfl, fun _ => rfl⟩

theorem AnnounceWork.trans {v : Nat} {s t u : State} (h : AnnounceWork v s t) (k : AnnounceWork v t u) : AnnounceWork v s u where
  inside := h.inside.trans k.inside
  vehicle r hr := by
    obtain ⟨_, hm⟩ := h.vehicle r hr
    obtain ⟨n, hn⟩ := k.vehicle _ hm
    exact ⟨n, hn⟩
  acks i := (k.acks i).trans (h.acks i)
  serials j := (k.serials j).trans (h.serials j)

theorem validatorAt_congr {s t : State} (hs : RosterOk s) (ht : RosterOk t)
    (serials : ∀ j, (look t.validators j).map Validator.serial = (look s.validators j).map Validator.serial) (n : Nat) :
    validatorAt t n = validatorAt s n := by
  ext j
  rw [validatorAt_iff hs, validatorAt_iff ht]
  simp only [serials]

theorem AnnounceWork.validatorAt {v : Nat} {s t : State} (h : AnnounceWork v s t) (roster : RosterOk s) (n : Nat) :
    validatorAt t n = validatorAt s n := validatorAt_congr roster (h.inside.roster roster) h.serials n

theorem SameValidatorAt.serial {s t : State} {i : Nat} (h : SameValidatorAt s t i) :
    (look t.validators i).map Validator.serial = (look s.validators i).map Validator.serial := by
  cases hx : look s.validators i with
  | none => rw [h.2 hx]
  | some x =>
    obtain ⟨n, hn⟩ := h.1 x hx
    rw [hn]
    rfl

@[simp] theorem orphan_acks (k : SlotIx) (l : Lane) : (orphan k l).acks = l.acks := by
  unfold orphan
  split
  · rfl
  · split
    · split <;> rfl
    · rfl
    · rfl
    · rfl

theorem endSlot_acks (k : SlotIx) (c : EndCond) (u : Bool) (s : State) (i : LaneIx) :
    ((endSlot k c u s).lane i).acks = (s.lane i).acks := by
  cases h : (s.slot k).binding with
  | none => rw [endSlot_free k c u s h]
  | some b =>
    have ended := endSlot_effect k c u s b h
    by_cases hi : i = b.lane
    · subst hi
      have acks : ((endSlot k c u s).lane b.lane).untimed.acks = (orphan k (s.lane b.lane)).untimed.acks := by rw [ended.lane]
      exact acks.trans (orphan_acks ..)
    · rw [ended.laneOther i hi]

theorem endSlotsWhere_acks (which : Binding → Bool) (c : EndCond) (s : State) (i : LaneIx) :
    ((endSlotsWhere which c s).lane i).acks = (s.lane i).acks := by
  rw [endSlotsWhere_eq]
  generalize allSlots = l
  induction l generalizing s with
  | nil => rfl
  | cons k l ih =>
    rw [List.foldl_cons, ih]
    unfold endIf
    split
    · rfl
    · split
      · exact endSlot_acks ..
      · rfl

theorem announceWork_endSlotsWhere (v : Nat) {c : EndCond} (hc : SilentEnd c) (which : Binding → Bool) (s : State) :
    AnnounceWork v s (endSlotsWhere which c s) where
  inside := inside_endSlotsWhere which c s
  vehicle := ((endSlotsWhere_effect which c s).vehicles v).1
  acks := endSlotsWhere_acks which c s
  serials j := (sameValidators_endSlotsWhere hc which s j).serial

/-- Another vehicle's record may change as it will. -/
theorem announceWork_modVehicle {v n : Nat} (h : n ≠ v) (f : Vehicle → Vehicle) (s : State) : AnnounceWork v s (modVehicle n f s) where
  inside := inside_modVehicle n f s
  vehicle r hr := by
    refine ⟨r.boundSlots, ?_⟩
    cases hq : look s.vehicles n with
    | none => simpa [modVehicle, hq] using hr
    | some q =>
      rw [modVehicle_of_look hq]
      exact (look_put_other _ _ _ _ h.symm).trans hr
  acks i := by simp
  serials j := by simp

theorem announceWork_put (v : Nat) {s : State} {j : Nat} {x y : Validator} (hx : look s.validators j = some x)
    (serial : y.serial = x.serial) : AnnounceWork v s { s with validators := put s.validators j y } where
  inside := by
    have inside := inside_modValidator j (fun _ => y) s
    rw [modValidator_of_look hx] at inside
    exact inside
  vehicle r hr := ⟨r.boundSlots, hr⟩
  acks _ := rfl
  serials k := by
    by_cases h : k = j
    · subst h
      simp [look_put_same, hx, serial]
    · simp [look_put_other _ _ _ _ h]

theorem announceWork_modValidator (v : Nat) {s : State} {j : Nat} {x : Validator} (hx : look s.validators j = some x)
    (f : Validator → Validator) (serial : (f x).serial = x.serial) : AnnounceWork v s (modValidator j f s) := by
  rw [modValidator_of_look hx]
  exact announceWork_put v hx serial

theorem announceWork_submitAll (v : Nat) (bs : List ReportBody) (s : State) : AnnounceWork v s (submitAll bs s) where
  inside := inside_submitAll bs s
  vehicle r hr := ⟨r.boundSlots, by rw [submitAll_vehicles]; exact hr⟩
  acks i := by
    rw [submitAll_rest]
    rfl
  serials j := by rw [submitAll_validators]

theorem moveFrom_work (v j : Nat) (s : State) : AnnounceWork v s (moveFrom v j s) ∧ SameValidators s (moveFrom v j s) := by
  cases hx : look s.validators j with
  | none =>
    have same : moveFrom v j s = s := by rw [moveFrom, hx]
    rw [same]
    exact ⟨.refl v s, .refl s⟩
  | some x =>
    by_cases own : x.vehicle = none ∨ x.vehicle = some v
    · rw [moveFrom_own hx own]
      exact ⟨.refl v s, .refl s⟩
    · rw [not_or] at own
      obtain ⟨n, hn⟩ := Option.ne_none_iff_exists'.1 own.1
      have other : n ≠ v := fun e => own.2 (hn.trans (e ▸ rfl))
      rw [moveFrom_other hx hn other]
      have unlisted : AnnounceWork v s (unlist j (some n) s) := announceWork_modVehicle other _ s
      have entries : SameValidators s (unlist j (some n) s) := fun i => .of_eq (by simp [unlist])
      generalize unlist j (some n) s = u at unlisted entries ⊢
      exact ⟨unlisted.trans (announceWork_endSlotsWhere v silentEnd_moved _ u),
        entries.trans (sameValidators_endSlotsWhere silentEnd_moved _ u)⟩

/-! ## The items (R51) -/

/-- The entry of an announced validator, with the vehicle at `v`. -/
structure Announced (v now : Nat) (x : AnnounceItem) (y : Validator) : Prop where
  serial : y.serial = x.serial
  vehicle : y.vehicle = some v
  position : y.position = x.position
  heldFare : y.heldFare = x.fare
  heldBlock : y.heldBlock = x.block
  lastHeard : y.lastHeard = now

/-- A validator stays as announced where only its bound slot may change. -/
theorem Announced.same {v now : Nat} {x : AnnounceItem} {s t : State} {j : Nat} (same : SameValidatorAt s t j)
    (h : ∃ y, look s.validators j = some y ∧ Announced v now x y) : ∃ y, look t.validators j = some y ∧ Announced v now x y := by
  obtain ⟨y, hy, announced⟩ := h
  obtain ⟨n, hn⟩ := same.1 y hy
  exact ⟨_, hn, announced.serial, announced.vehicle, announced.position, announced.heldFare, announced.heldBlock, announced.lastHeard⟩

/-- The held generations are written and the reports submitted: of the entry only generations, list, lag and flags change (R56). -/
theorem writeHeld_work (v : Nat) {s : State} {j : Nat} {z : Validator} (hz : look s.validators j = some z) (fare block : Option Nat) :
    AnnounceWork v s (submitAll (writeHeld j fare block s).2 (writeHeld j fare block s).1) ∧
    (∃ lag work flags, look (submitAll (writeHeld j fare block s).2 (writeHeld j fare block s).1).validators j =
      some { z with heldFare := fare, heldBlock := block, lag := lag, work := work, flags := flags }) ∧
    ∀ k, k ≠ j → look (submitAll (writeHeld j fare block s).2 (writeHeld j fare block s).1).validators k = look s.validators k := by
  obtain ⟨ahead, delivered, held⟩ := writeHeld_of_look hz fare block
  rw [held]
  refine ⟨AnnounceWork.trans (announceWork_put v hz (by rfl)) (announceWork_submitAll v delivered _),
    ⟨blockLag s block, workList s fare block, { z.flags with ahead := ahead }, ?_⟩, fun k hk => ?_⟩
  · rw [submitAll_validators]
    exact look_put_same ..
  · rw [submitAll_validators]
    exact look_put_other _ _ _ _ hk

/-- One item of a known validator: its entry is as announced, of the others only bound slots change. -/
theorem announceOne_known {s : State} (roster : RosterOk s) {v number j : Nat} {taken : List (Nat × Nat)} {x : AnnounceItem}
    (hj : validatorAt s x.serial = some j) : ∃ t, announceOne v number (s, taken) x = (t, taken ++ [(x.position, j)]) ∧
      AnnounceWork v s t ∧ (∃ y, look t.validators j = some y ∧ Announced v s.clock.count x y) ∧
      ∀ k, k ≠ j → SameValidatorAt s t k := by
  obtain ⟨z, hz, serial⟩ := validatorAt_look roster hj
  obtain ⟨work, same⟩ := moveFrom_work v j s
  refine ⟨_, announceOne_some (findOrCreate_known hj) rfl, ?_⟩
  unfold placedEntry
  generalize moveFrom v j s = u at work same ⊢
  obtain ⟨n, hn⟩ := (same j).1 z hz
  have listed := announceWork_modValidator v hn
    (fun x' => { x' with vehicle := some v, position := x.position, lastHeard := s.clock.count }) rfl
  have entry : look (modValidator j (fun x' => { x' with
      vehicle := some v, position := x.position, lastHeard := s.clock.count }) u).validators j = some { z with
        boundSlot := n, vehicle := some v, position := x.position, lastHeard := s.clock.count } := by
    rw [modValidator_of_look hn]
    exact look_put_same ..
  have others : ∀ k, k ≠ j → look (modValidator j (fun x' => { x' with
      vehicle := some v, position := x.position, lastHeard := s.clock.count }) u).validators k = look u.validators k := fun k hk => by
    rw [modValidator_of_look hn]
    exact look_put_other _ _ _ _ hk
  generalize modValidator j (fun x' => { x' with vehicle := some v, position := x.position, lastHeard := s.clock.count }) u = m
    at listed entry others ⊢
  obtain ⟨held, ⟨lag, list, flags, hy⟩, rest⟩ := writeHeld_work v entry x.fare x.block
  exact ⟨work.trans (listed.trans held), ⟨_, hy, serial, rfl, rfl, rfl, rfl, rfl⟩,
    fun k hk => (same k).trans (.of_eq ((rest k hk).trans (others k hk)))⟩

/-- The positions and indices that a list of items of known validators takes. -/
def itemPlaces (s : State) (items : List AnnounceItem) : List (Nat × Nat) :=
  items.filterMap (fun x => (validatorAt s x.serial).map (fun j => (x.position, j)))

/-- What the items of an announce of known validators leave behind. -/
structure ItemsHandled (v : Nat) (items : List AnnounceItem) (s t : State) : Prop where
  work : AnnounceWork v s t
  announced : ∀ x ∈ items, ∀ j, validatorAt s x.serial = some j → ∃ y, look t.validators j = some y ∧ Announced v s.clock.count x y
  others : ∀ k, (∀ x ∈ items, validatorAt s x.serial ≠ some k) → SameValidatorAt s t k

theorem announceItems_known {items : List AnnounceItem} {s : State} (roster : RosterOk s) (v number : Nat) (taken : List (Nat × Nat))
    (once : (items.map AnnounceItem.serial).Nodup) (known : ∀ x ∈ items, validatorAt s x.serial ≠ none) :
    ∃ t, items.foldl (announceOne v number) (s, taken) = (t, taken ++ itemPlaces s items) ∧ ItemsHandled v items s t := by
  induction items generalizing s taken with
  | nil =>
    refine ⟨s, by simp [itemPlaces], .refl v s, fun x hx => absurd hx List.not_mem_nil, fun k _ => .of_eq rfl⟩
  | cons x items ih =>
    obtain ⟨fresh, once⟩ := List.nodup_cons.1 once
    obtain ⟨j, hj⟩ := Option.ne_none_iff_exists'.1 (known x List.mem_cons_self)
    obtain ⟨u, step, work, written, rest⟩ := announceOne_known roster (v := v) (number := number) (taken := taken) hj
    have at_ := work.validatorAt roster
    obtain ⟨t, later, handled⟩ := ih (work.inside.roster roster) (taken ++ [(x.position, j)]) once
      (fun y hy => by rw [at_]; exact known y (List.mem_cons_of_mem _ hy))
    have apart : ∀ y ∈ items, validatorAt u y.serial ≠ some j := fun y hy e => by
      rw [at_] at e
      obtain ⟨a, ha, ea⟩ := validatorAt_look roster hj
      obtain ⟨b, hb, eb⟩ := validatorAt_look roster e
      rw [ha] at hb
      cases hb
      exact fresh (List.mem_map.2 ⟨y, hy, eb.symm.trans ea⟩)
    refine ⟨t, ?_, work.trans handled.work, fun y hy k hk => ?_, fun k hk => ?_⟩
    · rw [List.foldl_cons, step, later]
      simp [itemPlaces, hj, at_]
    · rcases List.mem_cons.1 hy with rfl | hy
      · rw [hj] at hk
        cases hk
        exact Announced.same (handled.others j apart) written
      · rw [← work.inside.clock]
        exact handled.announced y hy k ((at_ y.serial).trans hk)
    · have ne : k ≠ j := fun e => hk x List.mem_cons_self (hj.trans (e ▸ rfl))
      exact (rest k ne).trans (handled.others k (fun y hy => by rw [at_]; exact hk y (List.mem_cons_of_mem _ hy)))

/-! ## The validators left out (R53) -/

/-- Detaching: no record but those of the named validators changes, and only in their vehicle. -/
theorem unattachAll_work (v : Nat) (ids : List Nat) (s : State) : AnnounceWork v s (ids.foldl unattach s) ∧
    ∀ j, look (ids.foldl unattach s).validators j =
      if j ∈ ids then (look s.validators j).map (fun x => { x with vehicle := none }) else look s.validators j := by
  induction ids generalizing s with
  | nil => exact ⟨.refl v s, fun j => by simp⟩
  | cons i ids ih =>
    have one : AnnounceWork v s (unattach s i) ∧ ∀ j, look (unattach s i).validators j =
        if j = i then (look s.validators j).map (fun x => { x with vehicle := none }) else look s.validators j := by
      cases hx : look s.validators i with
      | none =>
        have same : unattach s i = s := by simp [unattach, modValidator, hx]
        rw [same]
        refine ⟨.refl v s, fun j => ?_⟩
        split
        · rename_i e
          rw [e, hx]
          rfl
        · rfl
      | some x =>
        rw [unattach, modValidator_of_look hx]
        refine ⟨announceWork_put v hx rfl, fun j => ?_⟩
        split
        · rename_i e
          rw [e, hx]
          exact look_put_same ..
        · rename_i h
          exact look_put_other _ _ _ _ h
    obtain ⟨work, entries⟩ := one
    obtain ⟨later, rest⟩ := ih (unattach s i)
    refine ⟨work.trans later, fun j => ?_⟩
    rw [List.foldl_cons, rest, entries]
    by_cases hi : j = i
    · subst hi
      by_cases hj : j ∈ ids
      · cases look s.validators j <;> simp [hj]
      · simp [hj]
    · by_cases hj : j ∈ ids <;> simp [hi, hj]

theorem detachAll_work (v : Nat) (ids : List Nat) (s : State) : AnnounceWork v s (detachAll ids s) ∧
    (∀ j, j ∉ ids → SameValidatorAt s (detachAll ids s) j) ∧
    ∀ j ∈ ids, ∀ y, look (detachAll ids s).validators j = some y → y.vehicle = none := by
  obtain ⟨work, entries⟩ := unattachAll_work v ids s
  unfold detachAll
  generalize ids.foldl unattach s = u at work entries ⊢
  have same := sameValidators_endSlotsWhere silentEnd_moved (fun b => ids.contains b.validator) u
  refine ⟨work.trans (announceWork_endSlotsWhere v silentEnd_moved _ u), fun j hj => ?_, fun j hj y hy => ?_⟩
  · refine SameValidatorAt.trans (.of_eq ?_) (same j)
    rw [entries, if_neg hj]
  · have entry := entries j
    rw [if_pos hj] at entry
    cases hx : look s.validators j with
    | none =>
      rw [hx] at entry
      rw [(same j).2 entry] at hy
      cases hy
    | some x =>
      rw [hx] at entry
      obtain ⟨n, hn⟩ := (same j).1 _ entry
      rw [hn] at hy
      cases hy
      rfl

/-! ## The order of the list (R51) -/

theorem mem_itemPlaces {s : State} {items : List AnnounceItem} {p : Nat × Nat} :
    p ∈ itemPlaces s items ↔ ∃ x ∈ items, validatorAt s x.serial = some p.2 ∧ x.position = p.1 := by
  obtain ⟨position, j⟩ := p
  simp only [itemPlaces, List.mem_filterMap, Option.map_eq_some_iff, Prod.mk.injEq]
  constructor
  · rintro ⟨x, hx, k, hk, hp, rfl⟩
    exact ⟨x, hx, hk, hp⟩
  · rintro ⟨x, hx, hk, hp⟩
    exact ⟨x, hx, j, hk, hp, rfl⟩

theorem itemPlaces_positions {s : State} {items : List AnnounceItem} (known : ∀ x ∈ items, validatorAt s x.serial ≠ none) :
    (itemPlaces s items).map Prod.fst = items.map AnnounceItem.position := by
  induction items with
  | nil => rfl
  | cons x items ih =>
    obtain ⟨j, hj⟩ := Option.ne_none_iff_exists'.1 (known x List.mem_cons_self)
    have rest := ih (fun y hy => known y (List.mem_cons_of_mem _ hy))
    rw [itemPlaces] at rest
    simp [itemPlaces, hj, rest]

/-- The list of an announce of known validators: their indices in strictly ascending position. -/
theorem listedInOrder_itemPlaces {s : State} {items : List AnnounceItem} (known : ∀ x ∈ items, validatorAt s x.serial ≠ none)
    (once : (items.map AnnounceItem.position).Nodup) :
    ∃ sorted : List (Nat × Nat), listedInOrder (itemPlaces s items) = sorted.map Prod.snd ∧ sorted.length = items.length ∧
      (∀ p, p ∈ sorted ↔ ∃ x ∈ items, validatorAt s x.serial = some p.2 ∧ x.position = p.1) ∧
      sorted.Pairwise (fun p q => p.1 < q.1) := by
  obtain ⟨sorted, perm, ascending, e⟩ := listedInOrder_sorted (itemPlaces s items)
  have positions : (sorted.map Prod.fst).Nodup := by
    rw [(perm.map Prod.fst).nodup_iff, itemPlaces_positions known]
    exact once
  have length : (itemPlaces s items).length = items.length := by
    simpa using congrArg List.length (itemPlaces_positions known)
  refine ⟨sorted, e, perm.length_eq.trans length, fun p => perm.mem_iff.trans mem_itemPlaces, ?_⟩
  exact ascending.imp₂ (fun p q le ne => Nat.lt_of_le_of_ne le ne) (List.pairwise_map.1 positions)

end Sys2Proof.Machine

/-! PROOFS. The statement about refresh and announce (R43, R47 to R54). -/

namespace Sys2Proof.Machine

/-! ## The announcing vehicle (R47, R50) -/

theorem sameValidators_endVehicleSlots {c : EndCond} (hc : SilentEnd c) (v : Nat) (s : State) :
    SameValidators s (endVehicleSlots v c s) := by
  unfold endVehicleSlots
  exact sameValidators_endSlotsWhere hc _ s

theorem endVehicleSlots_acks (v : Nat) (c : EndCond) (s : State) (j : LaneIx) :
    ((endVehicleSlots v c s).lane j).acks = (s.lane j).acks := by
  unfold endVehicleSlots
  exact endSlotsWhere_acks _ c s j

theorem announcedState_kept (sleep : Bool) (v : Nat) (before : Option VehicleState) (r : Vehicle) (s : State) :
    SameValidators s (announcedState sleep v before r s) ∧
    ∀ j : LaneIx, ((announcedState sleep v before r s).lane j).acks = (s.lane j).acks := by
  have same : SameValidators s { s with vehicles := put s.vehicles v (announcedVehicle sleep s.clock.count r) } :=
    fun _ => .of_eq rfl
  have acks : ∀ j : LaneIx, (State.lane { s with vehicles := put s.vehicles v (announcedVehicle sleep s.clock.count r) } j).acks =
    (s.lane j).acks := fun _ => rfl
  unfold announcedState
  generalize { s with vehicles := put s.vehicles v (announcedVehicle sleep s.clock.count r) } = u at same acks ⊢
  dsimp only
  split
  · exact ⟨same.trans (sameValidators_endVehicleSlots silentEnd_asleep v u),
      fun j => (endVehicleSlots_acks v .asleep u j).trans (acks j)⟩
  · exact ⟨same, acks⟩

/-- The announced record on the lane of the announce, with a count of bound slots (R47, R50). -/
def announcedOn (i : LaneIx) (sleep : Bool) (now n : Nat) (r : Vehicle) : Vehicle :=
  { announcedVehicle sleep now r with lane := i, boundSlots := n }

/-- The announcing vehicle's record is written and is on the lane; validators and acknowledge lists wait for the items. -/
theorem announceVehicle_effect {s : State} {v : Nat} {r : Vehicle} (hr : look s.vehicles v = some r) (i : LaneIx) (sleep : Bool)
    (before : Option VehicleState) :
    (∃ n, look (announceVehicle i sleep v before s).vehicles v = some (announcedOn i sleep s.clock.count n r)) ∧
    SameValidators s (announceVehicle i sleep v before s) ∧
    ∀ j : LaneIx, ((announceVehicle i sleep v before s).lane j).acks = (s.lane j).acks := by
  obtain ⟨n, hn⟩ := announcedState_vehicle sleep v before r s
  obtain ⟨same, acks⟩ := announcedState_kept sleep v before r s
  rw [announceVehicle_eq hr rfl]
  generalize announcedState sleep v before r s = w at hn same acks ⊢
  split
  · rename_i onLane
    subst onLane
    exact ⟨⟨n, hn⟩, same, acks⟩
  · have moved : look (modVehicle v (fun q => { q with lane := i }) w).vehicles v = some (announcedOn i sleep s.clock.count n r) := by
      rw [modVehicle_of_look hn]
      exact look_put_same ..
    have same' : SameValidators s (modVehicle v (fun q => { q with lane := i }) w) := same.trans fun _ => .of_eq (by simp)
    have acks' : ∀ j : LaneIx, ((modVehicle v (fun q => { q with lane := i }) w).lane j).acks = (s.lane j).acks := fun j => by
      simpa using acks j
    generalize modVehicle v (fun q => { q with lane := i }) w = u at moved same' acks' ⊢
    obtain ⟨m, hm⟩ := (sameVehicles_endVehicleSlots v .moved u v).1 _ moved
    exact ⟨⟨m, hm⟩, same'.trans (sameValidators_endVehicleSlots silentEnd_moved v u),
      fun j => (endVehicleSlots_acks v .moved u j).trans (acks' j)⟩

/-! ## Known validators of a known vehicle (R51 to R53) -/

/-- The state `d` in which the items of an announce of known validators have been handled and those left out detached; `sorted` holds
the announced positions with their roster indices. -/
structure KnownHandled (s d : State) (v : Nat) (items : List AnnounceItem) (former : List Nat) (sorted : List (Nat × Nat)) : Prop where
  announced : ∀ x ∈ items, ∀ j, validatorAt s x.serial = some j → ∃ y, look d.validators j = some y ∧ Announced v s.clock.count x y
  left : ∀ j ∈ former, (∀ x ∈ items, validatorAt s x.serial ≠ some j) → ∀ y, look d.validators j = some y → y.vehicle = none
  acks : ∀ i : LaneIx, (d.lane i).acks = (s.lane i).acks
  length : sorted.length = items.length
  places : ∀ p, p ∈ sorted ↔ ∃ x ∈ items, validatorAt s x.serial = some p.2 ∧ x.position = p.1
  ascending : sorted.Pairwise (fun p q => p.1 < q.1)

theorem KnownHandled.mem {s d : State} {v : Nat} {items : List AnnounceItem} {former : List Nat} {sorted : List (Nat × Nat)}
    (h : KnownHandled s d v items former sorted) (j : Nat) :
    j ∈ sorted.map Prod.snd ↔ ∃ x ∈ items, validatorAt s x.serial = some j := by
  rw [List.mem_map]
  constructor
  · rintro ⟨p, hp, rfl⟩
    obtain ⟨x, hx, hj, _⟩ := (h.places p).1 hp
    exact ⟨x, hx, hj⟩
  · rintro ⟨x, hx, hj⟩
    exact ⟨(x.position, j), (h.places _).2 ⟨x, hx, hj, rfl⟩, rfl⟩

/-- The listed entries stand in ascending position. -/
theorem KnownHandled.positions {s d : State} {v : Nat} {items : List AnnounceItem} {former : List Nat} {sorted : List (Nat × Nat)}
    (h : KnownHandled s d v items former sorted) : (sorted.map Prod.snd).Pairwise (fun j k => ∀ x y,
      look d.validators j = some x → look d.validators k = some y → x.position < y.position) := by
  have position : ∀ p ∈ sorted, ∀ y, look d.validators p.2 = some y → y.position = p.1 := fun p hp y hy => by
    obtain ⟨x, hx, hj, e⟩ := (h.places p).1 hp
    obtain ⟨z, hz, announced⟩ := h.announced x hx p.2 hj
    rw [hz] at hy
    cases hy
    exact announced.position.trans e
  refine List.pairwise_map.2 (h.ascending.imp_of_mem fun hp hq lt x y hx hy => ?_)
  rw [position _ hp x hx, position _ hq y hy]
  exact lt

/-- The announce of known validators by a known vehicle, down to its end. -/
theorem announce_known {s : State} {i : LaneIx} {number v : Nat} {sleep : Bool} {items : List AnnounceItem} {r : Vehicle}
    (ok : announceOk number items = true) (known : ∀ x ∈ items, validatorAt s x.serial ≠ none) (roster : RosterOk s)
    (hv : vehicleAt s number = some v) (hr : look s.vehicles v = some r) :
    ∃ (d : State) (sorted : List (Nat × Nat)) (arrived : Bool) (n : Nat), KnownHandled s d v items r.validators sorted ∧
      announce i number sleep items s = { announceEnd i number arrived sorted.length { d with
        vehicles := put d.vehicles v { announcedOn i sleep s.clock.count n r with validators := sorted.map Prod.snd } } with
          dispatchDue := true } := by
  obtain ⟨_, _, _, _, _, serials, positions⟩ := (announceOk_iff number items).1 ok
  obtain ⟨⟨m, hm⟩, same, acks⟩ := announceVehicle_effect hr i sleep (some r.state)
  have inside := inside_announceVehicle i sleep v (some r.state) s
  generalize hw : announceVehicle i sleep v (some r.state) s = w at hm same acks inside
  have at_ := validatorAt_congr roster (inside.roster roster) (fun j => (same j).serial)
  have known' : ∀ x ∈ items, validatorAt w x.serial ≠ none := fun x hx => by rw [at_]; exact known x hx
  obtain ⟨h, handled, effect⟩ := announceItems_known (inside.roster roster) v number [] serials known'
  obtain ⟨sorted, listed, length, places, ascending⟩ := listedInOrder_itemPlaces known' positions
  rw [List.nil_append] at handled
  obtain ⟨work, kept, left⟩ := detachAll_work v (r.validators.filter (fun j => decide (j ∉ sorted.map Prod.snd))) h
  generalize hd : detachAll (r.validators.filter (fun j => decide (j ∉ sorted.map Prod.snd))) h = d at work kept left
  obtain ⟨n, hn⟩ := (effect.work.trans work).vehicle _ hm
  have hn : look d.vehicles v = some (announcedOn i sleep s.clock.count n r) := hn
  refine ⟨d, sorted, decide (some r.state ≠ some .present ∧ sleep = false), n, ⟨fun x hx j hj => ?_, fun j hj unnamed => left j ?_, fun i => ?_, length, fun p => ?_, ascending⟩, ?_⟩
  · have named : j ∈ sorted.map Prod.snd :=
      List.mem_map.2 ⟨(x.position, j), (places _).2 ⟨x, hx, (at_ _).trans hj, rfl⟩, rfl⟩
    rw [← inside.clock]
    exact Announced.same (kept j (by simp [named])) (effect.announced x hx j ((at_ _).trans hj))
  · refine List.mem_filter.2 ⟨hj, decide_eq_true fun named => ?_⟩
    obtain ⟨p, hp, rfl⟩ := List.mem_map.1 named
    obtain ⟨x, hx, e, _⟩ := (places p).1 hp
    exact unnamed x hx ((at_ _).symm.trans e)
  · exact ((effect.work.trans work).acks i).trans (acks i)
  · simp only [places, at_]
  · rw [announce_placed ok (announceRecord_known hv hr) hw hm handled listed hd hn, List.length_map]

/-! ## The end of the announce (R54) -/

theorem announceEnd_vehicles (i : LaneIx) (number n : Nat) (arrived : Bool) (s : State) :
    (announceEnd i number arrived n s).vehicles = s.vehicles := by
  cases arrived
  · rfl
  · rw [announceEnd_arrived]
    simp [placeAck]

theorem announceEnd_validators (i : LaneIx) (number n : Nat) (arrived : Bool) (s : State) :
    (announceEnd i number arrived n s).validators = s.validators := by
  cases arrived
  · rfl
  · rw [announceEnd_arrived]
    simp [placeAck]

theorem announceEnd_acks (i : LaneIx) (number n : Nat) (arrived : Bool) (s : State) :
    ((announceEnd i number arrived n s).lane i).acks = ((placeAck i number s).lane i).acks := by
  cases arrived
  · rfl
  · rw [announceEnd_arrived, submit_lane, modLane_lane_same]

theorem placeAck_acks (i : LaneIx) (number : Nat) (s : State) : ((placeAck i number s).lane i).acks =
    if number ∉ (s.lane i).acks ∧ (s.lane i).acks.length < 32 then (s.lane i).acks ++ [number] else (s.lane i).acks := by
  rw [placeAck_eq]
  split
  · simp [State.lane, get_set_same]
  · rfl

/-- Settles O51: each part by its equations, the announce of known validators by announce_known. -/
theorem refreshAndAnnounce : Obligations.RefreshAndAnnounce := by
  refine ⟨fun s number v r hv hr => ⟨refresh_awake hv hr, refresh_arrives hv hr⟩, fun s number hn => ?unknown,
    fun s i number sleep items bad => announce_malformed (mt (announceOk_iff number items).1 bad), ?known, announceOk_iff,
    fun s i number sleep items ok => ⟨announce_unplaced ok, ?whole⟩, fun s i number fresh hf => ?record, ?vehicle, ?item, ?move,
    fun s => validatorToEvict_rule, listedInOrder_sorted, fun _ _ => rfl, ?finish⟩
  case unknown => rw [refresh, hn]
  case known =>
    intro s t i number v sleep items r h1 h2 h3 h4 h5 h6 h7 known roster hv hr ht
    obtain ⟨d, sorted, arrived, n, handled, e⟩ :=
      announce_known (i := i) (sleep := sleep) ((announceOk_iff number items).2 ⟨h1, h2, h3, h4, h5, h6, h7⟩) known roster hv hr
    rw [e] at ht
    have record : look t.vehicles v = some { announcedOn i sleep s.clock.count n r with validators := sorted.map Prod.snd } := by
      rw [ht]
      dsimp only
      rw [announceEnd_vehicles]
      exact look_put_same ..
    have validators : t.validators = d.validators := by
      rw [ht]
      exact announceEnd_validators ..
    have acks : (t.lane i).acks = if number ∉ (s.lane i).acks ∧ (s.lane i).acks.length < 32
        then (s.lane i).acks ++ [number] else (s.lane i).acks := by
      rw [ht, ← handled.acks i]
      exact (announceEnd_acks ..).trans (placeAck_acks ..)
    rw [validators]
    refine ⟨⟨_, record, rfl, rfl, rfl, rfl, rfl, rfl, ?_, handled.mem, handled.positions⟩,
      fun x hx j hj => ?_, fun j hj y unnamed => handled.left j hj unnamed y, fun h h' => ?_, fun h => ?_, by rw [ht]⟩
    · exact (List.length_map ..).trans handled.length
    · obtain ⟨y, hy, announced⟩ := handled.announced x hx j hj
      exact ⟨y, hy, announced.serial, announced.vehicle, announced.position, announced.heldFare, announced.heldBlock,
        announced.lastHeard⟩
    · rw [acks, if_pos ⟨h, h'⟩]
    · rw [acks, if_neg fun k => h.elim k.1 (Nat.not_le.2 k.2)]
  case whole =>
    intro v before u w d r q handled listed hu hw hr hh hl hd hq
    exact announce_placed ok hu hw.symm hr hh.symm hl.symm hd.symm hq
  case record =>
    subst hf
    refine ⟨fun v r => announceRecord_known, fun v hn hv room => ?_, fun v r hn full evict => ?_, fun hn full none => ?_⟩
    · subst hv
      rw [announceRecord_new hn, roomForVehicle_unused room]
      rfl
    · rw [announceRecord_new hn, roomForVehicle_full full, evict]
      rfl
    · rw [announceRecord_new hn, roomForVehicle_full full, none]
      rfl
  case vehicle =>
    intro s u w i sleep v before r hr hu hw
    subst hu
    have e := announceVehicle_eq (i := i) (before := before) hr hw.symm
    exact ⟨fun h => e.trans (if_pos h), fun h => e.trans (if_neg h)⟩
  case item =>
    intro s v number taken t fresh placed hf hp
    subst hf
    have step : ∀ j u, findOrCreate t s = some (j, u) → u.clock = s.clock →
        announceOne v number (s, taken) t = placed j u := fun j u h clock =>
      (announceOne_some h clock).trans (hp j u _ rfl clock).symm
    refine ⟨fun j hj => step j s (findOrCreate_known hj) rfl, fun j hn hj room => step _ _ ?_ rfl,
      fun j x hn full evict => step _ _ ?_ ?_, fun hn full none => announceOne_none ?_⟩
    · subst hj
      rw [findOrCreate_new hn, roomForValidator_unused room]
      rfl
    · rw [findOrCreate_new hn, roomForValidator_full full, evict]
      rfl
    · exact (inside_evictValidator j x s).clock
    · rw [findOrCreate_new hn, roomForValidator_full full, none]
      rfl
  case move =>
    exact fun s v j x hx => ⟨moveFrom_own hx, fun n hn other => moveFrom_other hx hn other⟩
  case finish =>
    intro s p i number n hp
    rw [← placeAck_eq] at hp
    subst hp
    refine ⟨rfl, ?_⟩
    rw [announceEnd_arrived]
    simp only [modLane, beq_eq_decide]

end Sys2Proof.Machine

/-! PROOFS. What the events of lanes leave as it is (Inside), and which changes of lane records keep them within their ranges. -/

namespace Sys2Proof.Machine

/-! ## Lane records -/

/-- The fields of a lane record that its ranges speak of. -/
structure BoundedFields where
  state : LaneState
  params : LaneParams
  efficiency : Nat
  answers : List Answer
  acks : List Nat
  wake : List Nat
  burst : Nat
  breaks : Nat

/-- The bounded fields of a lane. -/
def Lane.bounded (l : Lane) : BoundedFields := ⟨l.state, l.params, l.efficiency, l.answers, l.acks, l.wake, l.burst, l.breaks⟩

/-- A lane change that touches none of the bounded fields. -/
theorem inside_modLane_bounded (i : LaneIx) (f : Lane → Lane) (s : State) (h : ∀ l : Lane, (f l).bounded = l.bounded) :
    Inside s (modLane i f s) := inside_modLane_free i f s fun l => BoundedFields.mk.inj (h l)

/-- A lane record in range takes the place of one. -/
theorem lanesOk_modLane {s : State} {i : LaneIx} {f : Lane → Lane} (ok : LanesOk s) (h : (f (s.lane i)).Ok) :
    LanesOk (modLane i f s) := by
  intro j
  by_cases e : j = i
  · subst e
    rw [modLane_lane_same]
    exact h
  · rw [modLane_lane_other i j f s e]
    exact ok j

theorem lanesOk_modLane_bounded {s : State} {i : LaneIx} {f : Lane → Lane} (ok : LanesOk s)
    (h : ∀ l : Lane, (f l).bounded = l.bounded) : LanesOk (modLane i f s) := (inside_modLane_bounded i f s h).lanes ok

/-- The parameters of SET_LANE are clamped into their ranges (R160); a segment size is rounded down within its range (R154). -/
theorem writtenParams_ok (mask : Nat) (f : RawLaneFields) {p : LaneParams} (h : p.ok) : (writtenParams mask f p).ok where
  divisor := masked_range h.divisor (by decide)
  roundLength := masked_range h.roundLength (by decide)
  announceWindow := (masked_range ⟨Nat.zero_le _, h.announceWindow⟩ (by decide)).2
  preamble := masked_range h.preamble (by decide)
  replyTimeout := masked_range h.replyTimeout (by decide)
  turnaround := (masked_range ⟨Nat.zero_le _, h.turnaround⟩ (by decide)).2
  slotsPerLane := masked_range h.slotsPerLane (by decide)
  segmentSize := by
    unfold writtenParams roundSegment clampTo
    split
    · dsimp only
      split_ifs <;> omega
    · exact h.segmentSize
  guardMargin := (masked_range ⟨Nat.zero_le _, h.guardMargin⟩ (by decide)).2
  atRiskLimit := (masked_range ⟨Nat.zero_le _, h.atRiskLimit⟩ (by decide)).2
  initialEfficiency := masked_range h.initialEfficiency (by decide)
  quietDelay := (masked_range ⟨Nat.zero_le _, h.quietDelay⟩ (by decide)).2
  quietMaximum := masked_range h.quietMaximum (by decide)
  burstRounds := masked_range h.burstRounds (by decide)

/-- A lane is switched on with the initial efficiency of its parameters, and its lists are empty (R69, R142). -/
theorem switchedOn_ok {p : LaneParams} (h : p.ok) (line : Bool) : (Lane.switchedOn p line).Ok where
  params := h
  efficiency _ := h.initialEfficiency
  answers := Nat.zero_le _
  acks := Nat.zero_le _
  wake := Nat.zero_le _
  burst := Nat.zero_le _
  breaks := Nat.zero_le _

theorem newEfficiency_range (e useful spent : Nat) :
    100 ≤ newEfficiency e useful spent ∧ newEfficiency e useful spent ≤ 1000 := by
  unfold newEfficiency clampTo
  split_ifs <;> omega

/-- A sample keeps the efficiency from 100 to 1000 (R68). -/
theorem sampled_ok {l : Lane} (h : l.Ok) : (sampled l).Ok := by
  unfold sampled
  split
  · exact h
  · split
    · exact ⟨h.params, fun _ => newEfficiency_range .., h.answers, h.acks, h.wake, h.burst, h.breaks⟩
    · exact h

/-! ## Rounds and transactions (R114 to R128) -/

theorem inside_cutFrame (i : LaneIx) (n : Nat) (s : State) : Inside s (modLane i (cutFrame n) s) :=
  inside_modLane_bounded i _ s fun _ => rfl

theorem inside_nextRound (i : LaneIx) (n : Nat) (s : State) (h : (s.lane i).state ≠ .off) : Inside s (nextRound i n s) :=
  have cut := inside_cutFrame i n s
  cut.trans (inside_beginRound i _ (cut.on i h))

theorem inside_endRound (i : LaneIx) (n : Nat) (s : State) (h : (s.lane i).state ≠ .off) : Inside s (endRound i n s) := by
  unfold endRound
  split
  · have counted : Inside s (modLane i (fun l => { l with burst := l.burst - 1 }) s) := inside_modLane i _ s
      (fun k => ⟨k.params, k.efficiency, k.answers, k.acks, k.wake, (Nat.sub_le ..).trans k.burst, k.breaks⟩) id
    exact counted.trans (inside_nextRound i n _ (counted.on i h))
  · split
    · exact inside_enterQuiet i n s h
    · exact inside_nextRound i n s h

theorem inside_closeWindow (i : LaneIx) (s : State) : Inside s (closeWindow i s) := by
  have opened : Inside s (modLane i (fun l =>
      { l with phase := .service, windowByArrival := false,
               reception := l.reception.map (fun r => { r with windowBytes := heardBytes s.now l }) }) s) :=
    inside_modLane_bounded i _ s fun _ => rfl
  simp only [closeWindow]
  split
  · exact opened.trans (inside_clearArrival ..)
  · exact opened

theorem inside_endTransaction (i : LaneIx) (t : Transaction) (n : Nat) (s : State) : Inside s (endTransaction i t n s) :=
  inside_modLane_bounded i _ s fun _ => rfl

theorem inside_looseFrame (i : LaneIx) (n : Nat) (s : State) : Inside s (looseFrame i n s) :=
  inside_modLane_bounded i _ s fun _ => rfl

theorem inside_handOutcome (o : Owner) (x : SlotOutcome) (s : State) : Inside s (handOutcome o x s) := by
  cases o with
  | slot k c => exact inside_slotOutcome k c x s
  | answer => exact Inside.refl s
  | rollCall => exact Inside.refl s
  | ended => exact Inside.refl s

theorem inside_failTransaction (i : LaneIx) (t : Transaction) (n : Nat) (s : State) : Inside s (failTransaction i t n s) :=
  (inside_endTransaction i t n s).trans (inside_handOutcome ..)

/-! ## Frames (R43, R112, R120, R121, R126, R133) -/

theorem inside_garbledFrame (i : LaneIx) (n : Nat) (s : State) : Inside s (garbledFrame i n s) := by
  unfold garbledFrame
  split
  · exact inside_looseFrame i n s
  · exact inside_failTransaction ..

theorem inside_verdictRefresh (o : Owner) (x : SlotOutcome) (s : State) : Inside s (verdictRefresh o x s) := by
  unfold verdictRefresh
  split
  · split
    · exact Inside.refl s
    · exact inside_modValidator ..
  · exact Inside.refl s

theorem inside_frameRefresh (f : RelayFrame) (s : State) : Inside s (frameRefresh f s) := by
  unfold frameRefresh
  split
  · exact Inside.refl s
  · exact inside_refresh ..

/-- An INQUIRE is queued only while the answer queue has a place (R121). -/
theorem inside_inquire (i : LaneIx) (f : RelayFrame) (s : State) : Inside s (inquire i f s) := by
  unfold inquire
  split
  next queued =>
    obtain ⟨-, -, room, -⟩ := queued
    refine Inside.trans (inside_modLane i _ s (fun k => ?_) id) (inside_retestIdle i _)
    refine ⟨k.params, k.efficiency, ?_, k.acks, k.wake, k.burst, k.breaks⟩
    rw [List.length_append]
    exact room
  next => exact Inside.refl s

/-- Work on a QUIET lane, after which a frame takes it out of QUIET (R133). -/
theorem inside_frameWake (i : LaneIx) {s t : State} (h : Inside s t) :
    Inside s (if (s.lane i).state = .quiet then leaveQuietByFrame i t else t) := by
  split
  next quiet =>
    have on : (s.lane i).state ≠ .off := by simp [quiet]
    exact h.trans (inside_leaveQuietByFrame i t (h.on i on))
  next => exact h

theorem inside_relayAct (i : LaneIx) (f : RelayFrame) (s : State) : Inside s (relayAct i f s) := by
  unfold relayAct
  split
  · exact inside_frameWake i (inside_announce ..)
  · exact inside_frameWake i (inside_inquire i f s)
  · exact Inside.refl s

theorem inside_clearFault (i : LaneIx) (s : State) : Inside s (clearFault i s) := inside_modLane_bounded i _ s fun _ => rfl

theorem inside_goodFrameEnd (i : LaneIx) (f : RelayFrame) (n : Nat) (s : State) : Inside s (goodFrameEnd i f n s) := by
  unfold goodFrameEnd
  split
  · exact (inside_looseFrame i n s).trans ((inside_clearFault i _).trans
      ((inside_frameRefresh f _).trans (inside_relayAct i f _)))
  · exact (inside_endTransaction i _ n s).trans ((inside_clearFault i _).trans ((inside_frameRefresh f _).trans
      ((inside_verdictRefresh _ _ _).trans ((inside_handOutcome _ _ _).trans (inside_relayAct i f _)))))

/-! ## Breaks, presence and gating (R136 to R142) -/

/-- The break count stays at 65,535 once it is there (R140). -/
theorem raiseBreaks_le {n : Nat} (h : n ≤ 65535) : raiseBreaks n ≤ 65535 := by
  unfold raiseBreaks
  split <;> omega

/-- A lane that can receive a break is switched on (R140). -/
theorem on_of_hearsBreak {now : Time} {l : Lane} (h : hearsBreak now l = true) : l.state ≠ .off := by
  intro off
  simp [hearsBreak, listening, off] at h

theorem inside_receiveBreak (i : LaneIx) (n : Nat) (s : State) (h : (s.lane i).state ≠ .off) :
    Inside s (receiveBreak i n s) := by
  have counted : Inside s (modLane i (fun l => { l with breaks := raiseBreaks (s.lane i).breaks, fault := true }) s) :=
    inside_modLane i _ s
      (fun k => ⟨k.params, k.efficiency, k.answers, k.acks, k.wake, k.burst, raiseBreaks_le k.breaks⟩) id
  have entered := counted.trans (inside_enterResetting i n _ (counted.on i h))
  simp only [receiveBreak]
  split
  · exact entered
  · exact entered.trans (inside_submit ..)

theorem inside_setLine (i : LaneIx) (level : Bool) (s : State) : Inside s (setLine i level s) :=
  inside_modLane_bounded i _ s fun _ => rfl

theorem inside_applyPresenceMode (i : LaneIx) (m : PresenceMode) (s : State) : Inside s (applyPresenceMode i m s) := by
  simp only [applyPresenceMode]
  split
  · exact Inside.refl s
  · split
    · exact inside_clearArrival ..
    · exact inside_retestIdle ..
    · split
      · split
        · exact inside_retestIdle ..
        · exact inside_setArrival ..
      · exact inside_clearArrival ..

theorem inside_writeLane (i : LaneIx) (mask : Nat) (f : RawLaneFields) (s : State) : Inside s (writeLane i mask f s) := by
  have written : Inside s (modLane i (fun l => { l with params := writtenParams mask f (s.lane i).params }) s) :=
    inside_modLane i _ s
      (fun k => ⟨writtenParams_ok mask f k.params, k.efficiency, k.answers, k.acks, k.wake, k.burst, k.breaks⟩) id
  exact written.trans ((inside_dispatchDue _ _).trans (inside_applyPresenceMode i _ _))

theorem inside_restartQuiet (i : LaneIx) (s : State) : Inside s (restartQuiet i s) :=
  inside_modLane_bounded i _ s fun _ => rfl

end Sys2Proof.Machine

/-! PROOFS. Every command and every step keeps the lane records within their ranges (R68, R116, R117, R121, R134, R140, R160). -/

namespace Sys2Proof.Machine

/-- The next state that a meaning answers, if it answers one, has its lane records within their ranges. -/
def AnswersInRange (r : Result) : Prop := ∀ t, r = .next t → LanesOk t

theorem answers_next {t : State} (h : LanesOk t) : AnswersInRange (.next t) := fun _ e => by cases e; exact h

theorem answers_fault (f : Fault) : AnswersInRange (.fault f) := fun _ e => by cases e

theorem answers_chooseAll {t : State} (h : LanesOk t) : AnswersInRange (.next (chooseAll t)) :=
  answers_next ((inside_chooseAll t).lanes h)

/-- What leaves every lane record as it is keeps the ranges. -/
theorem LanesOk.same {s t : State} (ok : LanesOk s) (h : t.lanes = s.lanes) : LanesOk t := by
  unfold LanesOk State.lane
  rwa [h]

theorem lanesOk_start (cause : StartCause) (p : Straps) (pin : Bool) (q : List Instr) : LanesOk (State.start cause p pin q) := by
  intro i
  rw [start_lane]
  exact off_ok false

section
variable {s : State} (ok : LanesOk s)
include ok

/-! ## The host link (08) -/

theorem answers_resetPinRelease (p : Straps) : AnswersInRange (execResetPinRelease p s) := by
  unfold execResetPinRelease
  split
  · exact answers_next (lanesOk_start _ _ _ _)
  · exact answers_next ok

theorem answers_resetPartTakesEffect (p : Straps) : AnswersInRange (execResetPartTakesEffect p s) := by
  unfold execResetPartTakesEffect
  split
  · exact answers_next (lanesOk_start _ _ _ _)
  · exact answers_next ok

/-- A frame that ends without a request drops its buffer and reports it. -/
theorem answers_droppedFrame (b : ReportBody) : AnswersInRange (.next (submit b (modHost dropFrame s))) :=
  answers_next ((inside_submit b (modHost dropFrame s)).lanes ok)

theorem answers_hostFrameEnd (bs : List Byte) : AnswersInRange (execHostFrameEnd bs s) := by
  unfold execHostFrameEnd goodHostFrame
  split
  · split
    · split
      · exact answers_next ok
      · exact answers_droppedFrame ok _
    · exact answers_droppedFrame ok _
  · exact answers_next ok

theorem answers_hostFrameAbort (bs : List Byte) : AnswersInRange (execHostFrameAbort bs s) := by
  unfold execHostFrameAbort
  split_ifs
  · exact answers_droppedFrame ok _
  · exact answers_droppedFrame ok _
  · exact answers_next ok
  · exact answers_next ok

theorem answers_hostFrameTimeout (bs : List Byte) : AnswersInRange (execHostFrameTimeout bs s) := by
  unfold execHostFrameTimeout
  split
  · exact answers_droppedFrame ok _
  · exact answers_next ok

/-! ## The content catalogue and the merge engine (01, 02) -/

theorem answers_loadData : AnswersInRange (execLoadData s) := by
  unfold execLoadData loadData
  split
  · split
    · exact answers_next ok
    · split_ifs
      · exact answers_next ok
      · exact answers_next ok
      · exact answers_next ok
      · exact answers_next ok
      · split
        · exact answers_fault _
        · exact answers_next ok
  · exact answers_next ok

theorem lanesOk_closeLoading (g : Byte) (o : Nat) (r : ContentObject) (bs : List Byte) : LanesOk (closeLoading g o r bs s) := by
  have freed := (inside_freeObject o s).lanes ok
  unfold closeLoading closeFreed
  repeat' split
  · exact freed
  · exact freed
  · exact freed
  · exact freed
  · exact ok
  · exact ok

theorem answers_loadClose : AnswersInRange (execLoadClose s) := by
  unfold execLoadClose
  split
  · split
    · exact answers_next ok
    · split
      · exact answers_next ok
      · exact answers_next (lanesOk_closeLoading ok _ _ _ _)
  · exact answers_next ok

theorem answers_discard : AnswersInRange (execDiscard s) := by
  unfold execDiscard
  split
  · split
    · exact answers_next ok
    · exact answers_next ((inside_freeObject _ s).lanes ok)
    · exact answers_next ((inside_freeObject _ s).lanes ok)
    · exact answers_next ((inside_discardMerge s).lanes ok)
    · exact answers_next ok
    · exact answers_next ok
  · exact answers_next ok

/-- A publish that is carried out, with its reply and the choice points. -/
theorem answers_published {t : State} (g : Byte) (f : Option (Nat × Nat)) (h : Inside s t) :
    AnswersInRange (.next (chooseAll (publishReply g f t))) := answers_chooseAll (h.lanes ok)

theorem answers_publishFareImage : AnswersInRange (execPublishFareImage s) := by
  unfold execPublishFareImage
  split
  · split
    · exact answers_next ok
    · split
      · exact answers_next ok
      · exact answers_published ok _ _ (inside_publishFare ..)
    · exact answers_next ok
  · exact answers_next ok

theorem answers_publishDelta : AnswersInRange (execPublishDelta s) := by
  unfold execPublishDelta
  split
  · split
    · exact answers_next ok
    · split
      · exact answers_next ok
      · exact answers_next ok
      · split
        · exact answers_published ok _ _ (inside_publishDelta ..)
        · exact answers_next ok
    · exact answers_next ok
  · exact answers_next ok

theorem answers_publishBase : AnswersInRange (execPublishBase s) := by
  unfold execPublishBase
  split
  · split
    · exact answers_next ok
    · split
      · exact answers_next ok
      · split
        · exact answers_published ok _ _ (inside_startChain ..)
        · exact answers_published ok _ _ (inside_rebase ..)
    · exact answers_next ok
  · exact answers_next ok

theorem answers_merge : AnswersInRange (execMerge s) := by
  simp only [execMerge, startMerge]
  split
  · split
    · exact answers_next ok
    · split_ifs
      · exact answers_next ok
      · exact answers_next ok
      · split
        · exact answers_next ((Inside.foldl _ (fun t o => inside_takeRef o t) _ (createObject _ _ _ s)).lanes ok)
        · exact answers_next ok
      · split <;> exact answers_next ok
  · exact answers_next ok

theorem answers_mergeProgress (n : Nat) : AnswersInRange (execMergeProgress n s) := by
  simp only [execMergeProgress]
  split
  · exact answers_next ok
  · split
    · exact answers_next ok
    · split
      · split
        · exact answers_fault _
        · exact answers_next (ok.same (modObject_lanes ..))
      · exact answers_next ok

theorem answers_mergeComplete : AnswersInRange (execMergeComplete s) := by
  simp only [execMergeComplete]
  split
  · exact answers_next ok
  · split
    · exact answers_next ok
    · split
      · split
        · exact answers_fault _
        · exact answers_next (((inside_settleMerge ..).trans (inside_retireSources ..)).lanes ok)
      · exact answers_next ok

theorem answers_mergeTooLarge : AnswersInRange (execMergeTooLarge s) := by
  unfold execMergeTooLarge
  split
  · exact answers_next ok
  · split
    · exact answers_next (((inside_failMerge ..).trans (inside_retireSources ..)).lanes ok)
    · exact answers_next ok

/-! ## The roster, the clock, the scanner and the dispatcher (03, 04, 05) -/

theorem answers_expectVehicle : AnswersInRange (execExpectVehicle s) := by
  unfold execExpectVehicle expectVehicle
  split
  · split
    · split
      · exact answers_next ok
      · split
        · exact answers_chooseAll ((inside_expectKnown ..).lanes ok)
        · split
          · exact answers_next ok
          · rename_i room
            exact answers_chooseAll ((inside_roomForVehicle _ _ _ room).1.lanes ok)
    · exact answers_next ok
  · exact answers_next ok

theorem answers_setDeparture : AnswersInRange (execSetDeparture s) := by
  unfold execSetDeparture
  split
  · split
    · split
      · exact answers_next ok
      · exact answers_next ((inside_modVehicle ..).lanes ok)
    · exact answers_next ok
  · exact answers_next ok

theorem answers_departVehicle : AnswersInRange (execDepartVehicle s) := by
  unfold execDepartVehicle
  split
  · split
    · split
      · exact answers_next ok
      · exact answers_chooseAll ((inside_departKnown ..).lanes ok)
    · exact answers_next ok
  · exact answers_next ok

theorem answers_silenceLimitReached (v : Nat) : AnswersInRange (execSilenceLimitReached v s) := by
  unfold execSilenceLimitReached
  split
  · exact answers_next ok
  · exact answers_chooseAll ((inside_silenceCheck s v).lanes ok)

theorem lanesOk_setTime (n : Nat) : LanesOk (setTime n s) := by
  rw [setTime_eq]
  have stamped : LanesOk (timeSet n s) := ok
  split
  · exact stamped
  · exact (inside_silenceCheckAll _).lanes stamped

theorem answers_setTime : AnswersInRange (execSetTime s) := by
  unfold execSetTime
  split
  · exact answers_chooseAll (lanesOk_setTime ok _)
  · exact answers_next ok

theorem answers_yardClockTick : AnswersInRange (execYardClockTick s) := by
  refine answers_chooseAll ?_
  split
  · exact ok
  · exact (inside_silenceCheckAll _).lanes ok

theorem lanesOk_startScan : LanesOk (startScan s) := by
  intro i
  have e : (startScan s).lane i = sampled (s.lane i) := Vector.getElem_map ..
  rw [e]
  exact sampled_ok (ok i)

theorem answers_scanNow : AnswersInRange (execScanNow s) := by
  unfold execScanNow
  split
  · split
    · exact answers_next ok
    · exact answers_next (lanesOk_startScan ok)
  · exact answers_next ok

theorem answers_scanPeriodExpiry : AnswersInRange (execScanPeriodExpiry s) := by
  unfold execScanPeriodExpiry
  split
  · exact answers_next ok
  · exact answers_next (lanesOk_startScan (s := advanceTo _ s) ok)

theorem answers_scanEntryTurn (i : Nat) : AnswersInRange (execScanEntryTurn i s) := by
  unfold execScanEntryTurn entryTurn
  split
  · exact answers_next ok
  · split
    · split
      · exact answers_next ok
      · split
        · exact answers_next ok
        · exact answers_next ((inside_submitAll ..).lanes ok)
    · exact answers_next ok

theorem answers_scanComplete : AnswersInRange (execScanComplete s) := by
  unfold execScanComplete
  split
  · exact answers_next ok
  · split
    · exact answers_next ((inside_submit ..).lanes ok)
    · exact answers_next ok

theorem answers_dispatchWalk : AnswersInRange (execDispatchWalk s) := by
  unfold execDispatchWalk
  split
  · split
    · exact answers_next ok
    · exact answers_next ((inside_dispatchWalk ..).lanes ok)
  · exact answers_next ok

theorem lanesOk_setPolicy (p : Policy) : LanesOk (setPolicy p s) := by
  have written : ∀ {t : State}, LanesOk t → ∀ d, LanesOk { t with policy := p, dispatchDue := d } := fun k _ => k
  exact written ((Inside.foldl (endAtLimit p.retryLimit) (inside_endAtLimit p.retryLimit) allSlots s).lanes ok) _

theorem answers_setPolicy : AnswersInRange (execSetPolicy s) := by
  unfold execSetPolicy
  split
  · split
    · exact answers_next ok
    · exact answers_chooseAll ((lanesOk_setPolicy ok _).same (answer_lanes ..))
  · exact answers_next ok

/-! ## Lane requests (07) -/

/-- A switched-on lane's record is made of parameters in range, whatever stood there before (R142). -/
theorem lanesOk_switchOn (i : LaneIx) (mask : Nat) (f : RawLaneFields) : LanesOk (switchOn i mask f s) := by
  have fresh : LanesOk (modLane i (fun l => Lane.switchedOn (writtenParams mask f LaneParams.defaults) l.lineAsserted) s) :=
    lanesOk_modLane ok (switchedOn_ok (writtenParams_ok mask f defaults_ok) _)
  have on : ((modLane i (fun l => Lane.switchedOn (writtenParams mask f LaneParams.defaults) l.lineAsserted) s).lane i).state ≠
      .off := by
    rw [modLane_lane_same]
    simp [Lane.switchedOn]
  exact ((inside_enterStarting i _ on).lanes fresh).same rfl

/-- A lane that is switched OFF takes the record of an OFF lane (R141). -/
theorem lanesOk_switchOff (i : LaneIx) : LanesOk (switchOff i s) := by
  have abandoned : LanesOk (modLane i (fun l => { l with transaction := none }) s) :=
    lanesOk_modLane_bounded ok fun _ => rfl
  have ended := ((inside_endLaneSlots i .laneOff _).trans (inside_departLane i _)).lanes abandoned
  simp only [switchOff]
  exact lanesOk_modLane ended (off_ok _)

theorem answers_laneOn (g : Byte) (i : LaneIx) (mask : Nat) (f : RawLaneFields) : AnswersInRange (.next (laneOn g i mask f s)) :=
  answers_chooseAll ((lanesOk_switchOn ok i mask f).same (answer_lanes ..))

theorem answers_laneOffRequest (g : Byte) (i : LaneIx) : AnswersInRange (.next (laneOffRequest g i s)) :=
  answers_chooseAll ((lanesOk_switchOff ok i).same (answer_lanes ..))

theorem answers_setLane : AnswersInRange (execSetLane s) := by
  unfold execSetLane
  split
  · split
    · exact answers_next ok
    · split_ifs
      · exact answers_next ok
      · exact answers_laneOn ok _ _ _ _
      · exact answers_chooseAll (((inside_writeLane ..).lanes ok).same (answer_lanes ..))
      · exact answers_next ok
      · exact answers_laneOffRequest ok _ _
  · exact answers_next ok

theorem answers_switchLaneOn : AnswersInRange (execSwitchLaneOn s) := by
  unfold execSwitchLaneOn
  split
  · split
    · exact answers_next ok
    · split_ifs
      · exact answers_next ok
      · exact answers_laneOn ok _ _ _ _
      · exact answers_next ok
  · exact answers_next ok

theorem answers_switchLaneOff : AnswersInRange (execSwitchLaneOff s) := by
  unfold execSwitchLaneOff
  split
  · split
    · exact answers_next ok
    · split_ifs
      · exact answers_next ok
      · exact answers_next ok
      · exact answers_laneOffRequest ok _ _
      · exact answers_next ok
  · exact answers_next ok

theorem answers_resetLane : AnswersInRange (execResetLane s) := by
  unfold execResetLane
  split
  · split
    · exact answers_next ok
    · rename_i i _
      split
      · exact answers_next ok
      · exact answers_next ((inside_clearFault ..).lanes ok)
      next on _ =>
        have entered := (inside_enterResetting i (heardBytes s.now (s.lane i)) s on).trans (inside_clearFault i _)
        exact answers_chooseAll ((entered.lanes ok).same rfl)
  · exact answers_next ok

theorem answers_wakeLane : AnswersInRange (execWakeLane s) := by
  unfold execWakeLane
  split
  · split
    · exact answers_next ok
    · rename_i i _
      simp only
      split
      next => exact answers_next ok
      next quiet => exact answers_next ((inside_leaveQuiet i false s (by simp [quiet])).lanes ok)
      next => exact answers_next ((inside_restartQuiet i s).lanes ok)
      next => exact answers_next ((inside_restartQuiet i s).lanes ok)
      next => exact answers_next ok
  · exact answers_next ok

/-! ## Lane rounds, frames and gating (06, 07) -/

theorem answers_lanePreambleEnd (i : LaneIx) : AnswersInRange (execLanePreambleEnd i s) := by
  unfold execLanePreambleEnd
  split
  next starting =>
    have on : (s.lane i).state ≠ .off := by simp [starting]
    exact answers_next ((inside_beginRound i (advanceTo _ s) on).lanes ok)
  next => exact answers_next ok

theorem answers_roundEnd (i : LaneIx) (n : Nat) : AnswersInRange (execRoundEnd i n s) := by
  unfold execRoundEnd
  split
  next active =>
    have on : (s.lane i).state ≠ .off := by simp [active]
    exact answers_next ((inside_endRound i n (advanceTo _ s) on).lanes ok)
  next => exact answers_next ok

theorem answers_beaconEnd (i : LaneIx) : AnswersInRange (execBeaconEnd i s) := by
  unfold execBeaconEnd
  split
  · exact answers_next (lanesOk_modLane_bounded (s := advanceTo _ s) ok fun _ => rfl)
  · exact answers_next ok

theorem answers_windowClose (i : LaneIx) : AnswersInRange (execWindowClose i s) := by
  unfold execWindowClose
  split
  · exact answers_chooseAll ((inside_closeWindow ..).lanes ok)
  · exact answers_next ok

theorem answers_fetchTimeReached (k : SlotIx) : AnswersInRange (execFetchTimeReached k s) := by
  unfold execFetchTimeReached
  split
  · exact answers_next ok
  · split
    · exact answers_chooseAll ok
    · exact answers_next ok

theorem answers_stateSendEnd (i : LaneIx) : AnswersInRange (execStateSendEnd i s) := by
  unfold execStateSendEnd
  split
  · exact answers_next ok
  · split
    · exact answers_chooseAll ((inside_endTransaction ..).lanes ok)
    · exact answers_next ok

theorem answers_replyTimeout (i : LaneIx) : AnswersInRange (execReplyTimeout i s) := by
  unfold execReplyTimeout
  split
  · exact answers_next ok
  · split
    · exact answers_next ok
    · exact answers_chooseAll ((inside_failTransaction ..).lanes ok)

theorem answers_transactionBudgetEnd (i : LaneIx) (n : Nat) : AnswersInRange (execTransactionBudgetEnd i n s) := by
  unfold execTransactionBudgetEnd
  split
  · exact answers_next ok
  · split
    · exact answers_next ok
    · exact answers_chooseAll ((inside_failTransaction ..).lanes ok)

theorem answers_garbledFrame (i : LaneIx) (n : Nat) (at_ : Time) :
    AnswersInRange (.next (chooseAll (garbledFrame i n (advanceTo at_ s)))) :=
  answers_chooseAll ((inside_garbledFrame i n (advanceTo at_ s)).lanes ok)

theorem answers_laneFrameReceived (i : LaneIx) (bs : List Byte) (at_ : Time) :
    AnswersInRange (execLaneFrameReceived i bs at_ s) := by
  simp only [execLaneFrameReceived]
  split
  · split
    · exact answers_garbledFrame ok _ _ _
    · exact answers_chooseAll ((inside_goodFrameEnd i _ _ (advanceTo at_ s)).lanes ok)
  · exact answers_next ok

theorem answers_laneFrameIdleEnd (i : LaneIx) (n : Nat) (at_ : Time) : AnswersInRange (execLaneFrameIdleEnd i n at_ s) := by
  simp only [execLaneFrameIdleEnd]
  split
  · exact answers_garbledFrame ok _ _ _
  · exact answers_next ok

theorem answers_laneFrameTooLong (i : LaneIx) (bs : List Byte) (at_ : Time) :
    AnswersInRange (execLaneFrameTooLong i bs at_ s) := by
  simp only [execLaneFrameTooLong]
  split
  · exact answers_garbledFrame ok _ _ _
  · exact answers_next ok

theorem answers_laneFrameStart (i : LaneIx) (at_ : Time) : AnswersInRange (execLaneFrameStart i at_ s) := by
  simp only [execLaneFrameStart]
  split
  · exact answers_next (lanesOk_modLane_bounded (s := advanceTo at_ s) ok fun _ => rfl)
  · exact answers_next ok

theorem answers_quietDelayExpiry (i : LaneIx) : AnswersInRange (execQuietDelayExpiry i s) := by
  unfold execQuietDelayExpiry
  split
  · exact answers_next (lanesOk_modLane_bounded (s := advanceTo _ s) ok fun _ => rfl)
  · exact answers_next ok
  · exact answers_next ok

theorem answers_quietMaximumExpiry (i : LaneIx) : AnswersInRange (execQuietMaximumExpiry i s) := by
  unfold execQuietMaximumExpiry
  split
  · exact answers_next ok
  · split
    next quiet =>
      have on : (s.lane i).state ≠ .off := by simp [quiet]
      exact answers_next ((inside_leaveQuiet i true (advanceTo _ s) on).lanes ok)
    next => exact answers_next ok

theorem answers_presenceAssert (i : LaneIx) : AnswersInRange (execPresenceAssert i s) := by
  simp only [execPresenceAssert]
  split_ifs
  · exact answers_next ok
  · exact answers_next ((inside_setLine i true s).lanes ok)
  · exact answers_next (((inside_setLine i true s).trans (inside_setArrival i _)).lanes ok)

theorem answers_presenceDeassert (i : LaneIx) : AnswersInRange (execPresenceDeassert i s) := by
  simp only [execPresenceDeassert]
  split_ifs
  · exact answers_next (((inside_setLine i false s).trans (inside_clearArrival i _)).lanes ok)
  · exact answers_next ((inside_setLine i false s).lanes ok)
  · exact answers_next ok

theorem answers_laneBreakReceived (i : LaneIx) (n : Nat) (at_ : Time) : AnswersInRange (execLaneBreakReceived i n at_ s) := by
  simp only [execLaneBreakReceived]
  split
  next heard =>
    exact answers_chooseAll ((inside_receiveBreak i n (advanceTo at_ s) (on_of_hearsBreak heard)).lanes ok)
  next => exact answers_next ok

theorem answers_laneBreakEnd (i : LaneIx) : AnswersInRange (execLaneBreakEnd i s) := by
  unfold execLaneBreakEnd
  split
  next resetting =>
    have on : (s.lane i).state ≠ .off := by simp [resetting]
    exact answers_next ((inside_enterStarting i (advanceTo _ s) on).lanes ok)
  next => exact answers_next ok

/-! ## All of them -/

/-- Every command answers with lanes in range; the first ones write no lane record at all. -/
theorem answers_exec (c : Instr) : AnswersInRange (exec c s) := by
  cases c
  case resetPinAssert | hostFrameStart | hostLinkBreak | hostBreakEnd | requestTake | transmitStart | transmitEnd | identify |
      resetPart | loadOpen | listObjects | readVehicle | readValidator | readRanking | clearFlags | readLane | readSlots =>
    simp only [exec, execResetPinAssert, execHostFrameStart, execHostLinkBreak, execHostBreakEnd, execRequestTake,
      execTransmitStart, execTransmitEnd, execIdentify, execResetPart, execLoadOpen, loadOpen, execListObjects,
      execReadVehicle, execReadValidator, execReadRanking, execClearFlags, execReadLane, execReadSlots]
    repeat' split
    all_goals exact answers_next ok
  case powerOn p => exact answers_next (lanesOk_start _ _ _ _)
  case resetPinRelease p => exact answers_resetPinRelease ok p
  case resetPartTakesEffect p => exact answers_resetPartTakesEffect ok p
  case hostFrameEnd bs => exact answers_hostFrameEnd ok bs
  case hostFrameAbort bs => exact answers_hostFrameAbort ok bs
  case hostFrameTimeout bs => exact answers_hostFrameTimeout ok bs
  case loadData => exact answers_loadData ok
  case loadClose => exact answers_loadClose ok
  case discard => exact answers_discard ok
  case publishFareImage => exact answers_publishFareImage ok
  case publishDelta => exact answers_publishDelta ok
  case publishBase => exact answers_publishBase ok
  case merge => exact answers_merge ok
  case mergeProgress n => exact answers_mergeProgress ok n
  case mergeComplete => exact answers_mergeComplete ok
  case mergeTooLarge => exact answers_mergeTooLarge ok
  case expectVehicle => exact answers_expectVehicle ok
  case setDeparture => exact answers_setDeparture ok
  case departVehicle => exact answers_departVehicle ok
  case setLane => exact answers_setLane ok
  case switchLaneOn => exact answers_switchLaneOn ok
  case switchLaneOff => exact answers_switchLaneOff ok
  case resetLane => exact answers_resetLane ok
  case wakeLane => exact answers_wakeLane ok
  case setPolicy => exact answers_setPolicy ok
  case setTime => exact answers_setTime ok
  case scanNow => exact answers_scanNow ok
  case yardClockTick => exact answers_yardClockTick ok
  case silenceLimitReached v => exact answers_silenceLimitReached ok v
  case scanPeriodExpiry => exact answers_scanPeriodExpiry ok
  case scanEntryTurn i => exact answers_scanEntryTurn ok i
  case scanComplete => exact answers_scanComplete ok
  case dispatchWalk => exact answers_dispatchWalk ok
  case lanePreambleEnd i => exact answers_lanePreambleEnd ok i
  case roundEnd i n => exact answers_roundEnd ok i n
  case beaconEnd i => exact answers_beaconEnd ok i
  case windowClose i => exact answers_windowClose ok i
  case fetchTimeReached k => exact answers_fetchTimeReached ok k
  case stateSendEnd i => exact answers_stateSendEnd ok i
  case laneFrameReceived i bs at_ => exact answers_laneFrameReceived ok i bs at_
  case laneFrameIdleEnd i n at_ => exact answers_laneFrameIdleEnd ok i n at_
  case replyTimeout i => exact answers_replyTimeout ok i
  case transactionBudgetEnd i n => exact answers_transactionBudgetEnd ok i n
  case quietDelayExpiry i => exact answers_quietDelayExpiry ok i
  case quietMaximumExpiry i => exact answers_quietMaximumExpiry ok i
  case presenceAssert i => exact answers_presenceAssert ok i
  case presenceDeassert i => exact answers_presenceDeassert ok i
  case laneBreakReceived i n at_ => exact answers_laneBreakReceived ok i n at_
  case laneBreakEnd i => exact answers_laneBreakEnd ok i
  case laneFrameStart i at_ => exact answers_laneFrameStart ok i at_
  case laneFrameTooLong i bs at_ => exact answers_laneFrameTooLong ok i bs at_

end

/-- Settles O59: an idle step leaves the lanes as they are, and each command keeps them: most lane events work inside the part
(Inside), a scan start clamps each sample, and a lane that is switched on or off takes a record in range. -/
theorem stepKeepsLanes : Obligations.StepKeepsLanes := by
  intro s t ok h
  unfold step at h
  split at h
  next =>
    cases h
    exact ok
  next c rest _ => exact answers_exec (s := { s with pending := rest }) ok c t h

end Sys2Proof.Machine

/-! PROOFS. CLEAR_FLAGS (R83, R86), the scan start (R65 to R68), the turns of a scan (R70 to R79) and its end (R79 to R81). -/

namespace Sys2Proof.Machine

/-! ## CLEAR_FLAGS (R83, R86) -/

theorem exec_clearFlags {s : State} {tag : Byte} {serial sel : Nat} (hq : Held s tag (.clearFlags serial sel)) :
    exec .clearFlags s = .next (if sel = 0 ∨ 32 ≤ sel then refuse 0x10 tag .badField s
      else if serial ≠ 0 ∧ validatorAt s serial = none then refuse 0x10 tag .notFound s
      else clearNamed tag serial sel s) := by
  simp only [exec, execClearFlags, show s.host.processor = .busy tag (.clearFlags serial sel) from hq]

/-- The entries that CLEAR_FLAGS names are those with its serial, or with serial 0 all of them (R83). -/
theorem namedEntries_eq (s : State) (serial : Nat) :
    namedEntries s serial = s.validators.filter (fun p => decide (serial = 0 ∨ p.2.serial = serial)) := by
  unfold namedEntries
  split
  next zero => simp [zero]
  next named => simp only [named, false_or, beq_eq_decide]

theorem clearedDue_iff (s : State) (serial sel : Nat) :
    (s.dispatchDue || (namedEntries s serial).any (fun p => p.2.flags.rejected && sel.testBit 3)) = true ↔
      s.dispatchDue = true ∨
        ∃ p ∈ s.validators, (serial = 0 ∨ p.2.serial = serial) ∧ p.2.flags.rejected = true ∧ sel.testBit 3 = true := by
  simp only [namedEntries_eq, Bool.or_eq_true, List.any_eq_true, List.mem_filter, decide_eq_true_eq, Bool.and_eq_true, and_assoc]

theorem clearNamed_eq (tag : Byte) (serial sel : Nat) (s : State) : clearNamed tag serial sel s =
    replied 0x90 tag .ok (leBytes 2 (s.validators.countP (fun p => decide (serial = 0 ∨ p.2.serial = serial) &&
      decide (p.2.flags ≠ p.2.flags.without sel)))) { s with
        validators := s.validators.map (fun p => if serial = 0 ∨ p.2.serial = serial
          then (p.1, { p.2 with flags := p.2.flags.without sel }) else p),
        dispatchDue := s.dispatchDue || (namedEntries s serial).any (fun p => p.2.flags.rejected && sel.testBit 3) } := by
  have count : ((namedEntries s serial).filter (fun p => decide (p.2.flags ≠ p.2.flags.without sel))).length =
      s.validators.countP (fun p => decide (serial = 0 ∨ p.2.serial = serial) &&
        decide (p.2.flags ≠ p.2.flags.without sel)) := by
    rw [namedEntries_eq, List.filter_filter, ← List.countP_eq_length_filter]
    exact List.countP_congr fun p _ => by rw [Bool.and_comm]
  rw [clearNamed, ← count]
  rfl

/-- Settles O33: the three outcomes of exec_clearFlags in their order; what is carried out is clearNamed_eq. -/
theorem clearFlagsOutcome : Obligations.ClearFlagsOutcome := by
  intro s tag serial sel hq
  rw [exec_clearFlags hq]
  refine ⟨fun bad => ?_, fun lo hi named none => ?_, fun n due lo hi found hn hdue => ?_, fun _ => rfl⟩
  · rw [if_pos bad]
    rfl
  · rw [if_neg (by omega), if_pos ⟨named, none⟩]
    rfl
  · have missing : ¬(serial ≠ 0 ∧ validatorAt s serial = none) := fun h => found.elim h.1 fun k => k h.2
    have same : due = (s.dispatchDue || (namedEntries s serial).any (fun p => p.2.flags.rejected && sel.testBit 3)) :=
      Bool.eq_iff_iff.2 (hdue.trans (clearedDue_iff s serial sel).symm)
    rw [if_neg (by omega), if_neg missing, clearNamed_eq, same, hn]

/-! ## The scan start (R65 to R68) -/

theorem laneInputs_on {l : Lane} (h : l.state ≠ .off) : laneInputs l = some ⟨l.params.divisor, l.params.segmentSize,
    l.params.guardMargin, l.params.atRiskLimit, l.params.crossing, l.efficiency⟩ := if_neg h

theorem clampTo_eq_max_min {lo hi n : Nat} (h : lo ≤ hi) : clampTo lo hi n = max lo (min hi n) := by
  unfold clampTo
  split_ifs <;> omega

/-- A lane without enough bytes spent is not sampled (R68). -/
theorem sampled_few {l : Lane} (few : l.spent < 4096) : sampled l = l := by
  rw [sampled, if_neg (Nat.not_le.2 few), ite_self]

theorem sampled_many {l : Lane} (on : l.state ≠ .off) (many : 4096 ≤ l.spent) : sampled l = { l with
    efficiency := max 100 (min 1000 ((3 * l.efficiency + 1000 * l.useful / l.spent) / 4)), useful := 0, spent := 0 } := by
  rw [sampled, if_neg on, if_pos many, newEfficiency, clampTo_eq_max_min (by decide)]

theorem exec_scanNow {s : State} {tag : Byte} (hq : Held s tag .scanNow) :
    (s.scanner.run = none → exec .scanNow s = .next (replied 0x97 tag .ok [] (startScan s))) ∧
    (s.scanner.run ≠ none → exec .scanNow s = .next (replied 0x97 tag .busy [] s)) := by
  have held : s.host.processor = .busy tag .scanNow := hq
  refine ⟨fun idle => ?_, fun running => ?_⟩
  · simp only [exec, execScanNow, held, idle]
    rfl
  · obtain ⟨run, hr⟩ := Option.ne_none_iff_exists'.1 running
    simp only [exec, execScanNow, held, hr]
    rfl

/-- The scan-period timer in internal time (R65). -/
theorem millis_seconds (n : Nat) : millis (1000 * n) = 1000000 * n := by
  show 1000 * n * 1000 = 1000000 * n
  omega

/-- Settles O36: a sample and the inputs case by case, then both ways to start by startScan; an expiry at or after its deadline
leaves internal time as it is. -/
theorem scanStarts : Obligations.ScanStarts := by
  refine ⟨fun l => ⟨fun off => ⟨if_pos off, if_pos off⟩, laneInputs_on, fun _ => sampled_few, sampled_many⟩,
    fun s u idle hu => ?_, fun s tag running hq => (exec_scanNow hq).2 running⟩
  have started : u = startScan s := by rw [hu, startScan, millis_seconds]
  subst started
  refine ⟨fun tag hq => (exec_scanNow hq).1 idle, fun due => ?_⟩
  have stays : advanceTo s.scanner.periodEnd s = s := by rw [advanceTo, max_eq_left due]
  simp only [exec, execScanPeriodExpiry, idle, stays]

end Sys2Proof.Machine

/-! PROOFS. The turn of a validator entry in a scan (R70 to R79), its class (R76), and the end of a scan (R79 to R81). -/

namespace Sys2Proof.Machine

/-! ## The turn of an entry (R70, R71) -/

/-- A turn that is possible: nothing to do for an unused entry, entryTurn for one in use (R70, log entry 24). -/
theorem exec_scanEntryTurn {s : State} {run : ScanRun} {i : Nat} (hr : s.scanner.run = some run) (hc : run.cursor ≤ i)
    (hi : i < 1024) (between : ∀ j v, look s.validators j = some v → j < run.cursor ∨ i ≤ j) :
    (look s.validators i = none → exec (.scanEntryTurn i) s = .next (setRun { run with cursor := i + 1 } s)) ∧
    (∀ v, look s.validators i = some v → exec (.scanEntryTurn i) s = .next (entryTurn i v run s)) := by
  have possible : run.cursor ≤ i ∧ i < Config.validatorEntries ∧ noEntryBetween s run.cursor i = true :=
    ⟨hc, hi, noEntryBetween_of s run.cursor i between⟩
  refine ⟨fun unused => ?_, fun v used => ?_⟩
  · simp only [exec, execScanEntryTurn, hr, if_pos possible, unused]
  · simp only [exec, execScanEntryTurn, hr, if_pos possible, used]

/-- An entry without work, without a vehicle or on a DEPARTED one, or without lane inputs has no turn inputs (R71). -/
theorem turnInputs_none {s : State} {run : ScanRun} {v : Validator}
    (h : v.work = [] ∨ v.vehicle.bind (look s.vehicles) = none ∨ (∃ veh, v.vehicle.bind (look s.vehicles) = some veh ∧
      (veh.state = .departed ∨ run.inputs.get veh.lane = none))) : turnInputs s run v = none := by
  unfold turnInputs
  obtain idle | detached | ⟨veh, attached, departed | absent⟩ := h
  · rw [if_pos idle]
  · rw [detached, ite_self]
  · simp only [attached, if_pos departed, ite_self]
  · simp only [attached, absent, ite_self]

theorem turnInputs_some {s : State} {run : ScanRun} {v : Validator} {veh : Vehicle} {inp : LaneInputs} (work : v.work ≠ [])
    (attached : v.vehicle.bind (look s.vehicles) = some veh) (there : veh.state ≠ .departed)
    (inputs : run.inputs.get veh.lane = some inp) : turnInputs s run v = some (veh, inp) := by
  simp only [turnInputs, if_neg work, attached, if_neg there, inputs]

theorem entryTurn_none {i : Nat} {v : Validator} {run : ScanRun} {s : State} (h : turnInputs s run v = none) :
    entryTurn i v run s = setRun { run with cursor := i + 1, walked := run.walked + 1 }
      { s with validators := put s.validators i (unfigured v) } := by
  rw [entryTurn, h]

theorem entryTurn_some {i : Nat} {v : Validator} {run : ScanRun} {s : State} {veh : Vehicle} {inp : LaneInputs} {p : Plan × Int}
    (h : turnInputs s run v = some (veh, inp)) (hp : planOf s run inp veh.departure v.work = p) :
    entryTurn i v run s = submitAll (turnReports inp v (figured run inp v p) p.2 veh)
      (setRun { run with
          cursor := i + 1, walked := run.walked + 1, computed := run.computed + 1,
          newList := if rankable veh.state && !v.flags.rejected
            then run.newList ++ [rankedEntry i (figured run inp v p) p.2 veh] else run.newList }
        { s with validators := put s.validators i (figured run inp v p) }) := by
  subst hp
  rw [entryTurn, h]

/-! ## The arithmetic (R72 to R75) -/

theorem wireBytes_sizesOf (s : State) (segment : Nat) (ids : List Nat) : wireBytes segment (sizesOf s ids) =
    (ids.map (fun o => ((look s.objects o).map ContentObject.declaredSize).getD 0)).sum +
      24 * (ids.map (fun o => ceilDiv (((look s.objects o).map ContentObject.declaredSize).getD 0) segment)).sum +
      96 * ids.length := by
  have sizes : sizesOf s ids = ids.map (fun o => ((look s.objects o).map ContentObject.declaredSize).getD 0) := by
    unfold sizesOf
    refine List.map_congr_left fun o _ => ?_
    cases look s.objects o <;> rfl
  rw [wireBytes, sizes, List.map_map, List.length_map]
  rfl

theorem clampSlack_eq_max_min (x : Int) : clampSlack x = max (-32768) (min 32767 x) := by
  unfold clampSlack
  split_ifs <;> omega

/-- Without a departure time, or with the time unset at the scan start, the slack is the largest (R74). -/
theorem itemSlack_unlimited {s : State} {run : ScanRun} {inp : LaneInputs} {departure : Option Nat}
    (h : departure = none ∨ run.unset = true) (ids : List Nat) : itemSlack s run inp departure ids = 32767 := by
  unfold itemSlack slackOf
  obtain none | unset := h
  · rw [none]
  · rw [unset]
    cases departure <;> rfl

theorem itemSlack_limited {s : State} {run : ScanRun} {inp : LaneInputs} {departure : Option Nat} {d : Nat}
    (hd : departure = some d) (set : run.unset = false) (ids : List Nat) : itemSlack s run inp departure ids =
      max (-32768) (min 32767 ((d : Int) - (run.time : Int) - (inp.guardMargin : Int) -
        ((min 65535 (ceilDiv (wireBytes inp.segmentSize (sizesOf s ids) * 10000) (921600 / inp.divisor * inp.efficiency)) : Nat) :
          Int))) := by
  simp only [itemSlack, slackOf, hd, set, Bool.false_eq_true, if_false, clampSlack_eq_max_min, airtime, laneRate,
    min_comm (65535 : Nat)]

/-- A plan is FULL when the whole list has time or its items are of one stream, and BLOCK_ONLY otherwise (R75). -/
theorem planOf_eq {s : State} {run : ScanRun} {inp : LaneInputs} {departure : Option Nat} {work : List Nat} {plan : Plan} {x : Int}
    {slack : List Nat → Int} (hs : ∀ ids, slack ids = itemSlack s run inp departure ids)
    (h : plan = .full ∧ x = slack work ∧
        (0 ≤ slack work ∨ (∀ o ∈ work, isBlock s o = true) ∨ (∀ o ∈ work, isBlock s o = false)) ∨
      plan = .blockOnly ∧ x = slack (work.filter (isBlock s)) ∧ slack work < 0 ∧
        (∃ o ∈ work, isBlock s o = true) ∧ (∃ o ∈ work, isBlock s o = false)) :
    planOf s run inp departure work = (plan, x) := by
  simp only [planOf, ← hs]
  obtain ⟨rfl, rfl, whole⟩ | ⟨rfl, rfl, short, block, fare⟩ := h
  · refine if_neg fun ⟨short, block, fare⟩ => ?_
    obtain ⟨o, ho, block⟩ := List.any_eq_true.1 block
    obtain ⟨q, hq, fare⟩ := List.all_eq_false.1 fare
    obtain time | blocks | fares := whole
    · omega
    · exact fare (blocks q hq)
    · exact Bool.noConfusion ((fares o ho).symm.trans block)
  · obtain ⟨o, ho, block⟩ := block
    obtain ⟨q, hq, fare⟩ := fare
    exact if_pos ⟨short, List.any_eq_true.2 ⟨o, ho, block⟩, List.all_eq_false.2 ⟨q, hq, by simp [fare]⟩⟩

/-! ## Flags, reports and rank (R77 to R79) -/

theorem signOf_eq_nonneg (x : Int) : signOf x = .nonneg ↔ 0 ≤ x := by
  unfold signOf
  split
  next time => simp [time]
  next short => simp [short]

theorem signOf_eq_neg (x : Int) : signOf x = .neg ↔ x < 0 := by
  unfold signOf
  split
  next time => simp [Int.not_lt.2 time]
  next short => simp [Int.not_le.1 short]

theorem fallen_signOf (before : Sign) (x : Int) : fallen before (signOf x) = decide (before = .nonneg ∧ x < 0) := by
  simp only [fallen, beq_eq_decide, signOf_eq_neg, Bool.decide_and]

theorem risen_signOf (before : Sign) (x : Int) : risen before (signOf x) = decide (before = .neg ∧ 0 ≤ x) := by
  simp only [risen, beq_eq_decide, signOf_eq_nonneg, Bool.decide_and]

theorem falls_iff (m : CrossingMode) : m.falls = true ↔ m = .falling ∨ m = .both := by cases m <;> simp [CrossingMode.falls]

theorem rises_iff (m : CrossingMode) : m.rises = true ↔ m = .rising ∨ m = .both := by cases m <;> simp [CrossingMode.rises]

theorem rankable_iff (v : VehicleState) : rankable v = true ↔ v = .present ∨ v = .asleep ∨ v = .expected := by
  cases v <;> simp [rankable]

theorem figured_eq (run : ScanRun) (inp : LaneInputs) (v : Validator) (plan : Plan) (x : Int) : figured run inp v (plan, x) =
    { v with
      plan := plan, slack := some x, cls := if run.urgentLag ≤ v.lag then 0 else if 0 ≤ x then 1 else 2,
      prevSign := if 0 ≤ x then .nonneg else .neg,
      flags := { v.flags with
        atRisk := v.flags.atRisk || decide (x < inp.atRiskLimit),
        negCrossed := v.flags.negCrossed || decide (v.prevSign = .nonneg ∧ x < 0) } } := by
  rw [figured, fallen_signOf]
  rfl

theorem turnReports_figured (run : ScanRun) (inp : LaneInputs) (v : Validator) (plan : Plan) (x : Int) (veh : Vehicle)
    (r : SlackReport) (hr : r = ⟨v.serial, veh.number, veh.lane, x, plan, v.lag, veh.departure⟩) :
    turnReports inp v (figured run inp v (plan, x)) x veh =
      (if v.flags.atRisk = false ∧ x < inp.atRiskLimit then [.atRisk r (figured run inp v (plan, x)).cls] else []) ++
      (if v.prevSign = .nonneg ∧ x < 0 ∧ (inp.crossing = .falling ∨ inp.crossing = .both) then [.slackNegative r] else []) ++
      (if v.prevSign = .neg ∧ 0 ≤ x ∧ (inp.crossing = .rising ∨ inp.crossing = .both) then [.slackRecovered r] else []) := by
  have risk : (!v.flags.atRisk && (figured run inp v (plan, x)).flags.atRisk) = true ↔
      v.flags.atRisk = false ∧ x < inp.atRiskLimit := by
    rw [figured_eq]
    cases v.flags.atRisk <;> simp
  have falls : (fallen v.prevSign (figured run inp v (plan, x)).prevSign && inp.crossing.falls) = true ↔
      v.prevSign = .nonneg ∧ x < 0 ∧ (inp.crossing = .falling ∨ inp.crossing = .both) := by
    rw [Bool.and_eq_true, falls_iff, show (figured run inp v (plan, x)).prevSign = signOf x from rfl, fallen_signOf,
      decide_eq_true_iff, and_assoc]
  have rises : (risen v.prevSign (figured run inp v (plan, x)).prevSign && inp.crossing.rises) = true ↔
      v.prevSign = .neg ∧ 0 ≤ x ∧ (inp.crossing = .rising ∨ inp.crossing = .both) := by
    rw [Bool.and_eq_true, rises_iff, show (figured run inp v (plan, x)).prevSign = signOf x from rfl, risen_signOf,
      decide_eq_true_iff, and_assoc]
  subst hr
  simp only [turnReports, risk, falls, rises]
  rfl

/-- Settles O37: exec_scanEntryTurn by whether the entry is in use, turnInputs by what it lacks; the figures of a computed entry are
those of planOf_eq, figured_eq and turnReports_figured. -/
theorem scanEntryTurnOutcome : Obligations.ScanEntryTurnOutcome := by
  intro s run i hr hc hi between
  obtain ⟨unused, used⟩ := exec_scanEntryTurn hr hc hi between
  refine ⟨unused, fun v hv => ⟨fun lacks => ?_, ?computed⟩⟩
  · rw [used v hv, entryTurn_none (turnInputs_none lacks)]
    rfl
  case computed =>
    intro veh inp wire slack plan x v' r work attached there inputs hwire unlimited limited choice hv' hr'
    have arithmetic : ∀ ids, slack ids = itemSlack s run inp veh.departure ids := by
      intro ids
      by_cases h : veh.departure = none ∨ run.unset = true
      · rw [unlimited ids h, itemSlack_unlimited h]
      · obtain ⟨departs, notUnset⟩ := not_or.1 h
        obtain ⟨d, hd⟩ := Option.ne_none_iff_exists'.1 departs
        have set := Bool.eq_false_of_not_eq_true notUnset
        rw [limited ids d hd set, itemSlack_limited hd set, hwire, wireBytes_sizesOf]
    rw [← figured_eq] at hv'
    subst hv'
    have ranked : (rankable veh.state && !v.flags.rejected) = true ↔
        (veh.state = .present ∨ veh.state = .asleep ∨ veh.state = .expected) ∧ v.flags.rejected = false := by
      rw [Bool.and_eq_true, rankable_iff, Bool.not_eq_true']
    rw [used v hv, entryTurn_some (turnInputs_some work attached there inputs) (planOf_eq arithmetic choice),
      turnReports_figured run inp v plan x veh r hr']
    simp only [ranked]
    rfl

/-- Settles O38: an entry that has a slack after its turn is a computed one, and its class is classOf (R76). -/
theorem classRule : Obligations.ClassRule := by
  intro s t run i v x hr hc hi between ht hv used hx
  obtain ⟨w, hw⟩ := Option.ne_none_iff_exists'.1 used
  rw [(exec_scanEntryTurn hr hc hi between).2 w hw] at ht
  obtain rfl : entryTurn i w run s = t := Host.Outcome.next.inj ht
  cases h : turnInputs s run w with
  | none =>
    rw [entryTurn_none h] at hv
    obtain rfl : unfigured w = v := Option.some.inj ((look_put_same ..).symm.trans hv)
    cases hx
  | some p =>
    obtain ⟨veh, inp⟩ := p
    rw [entryTurn_some h rfl, submitAll_validators] at hv
    obtain rfl : figured run inp w (planOf s run inp veh.departure w.work) = v :=
      Option.some.inj ((look_put_same ..).symm.trans hv)
    obtain rfl : (planOf s run inp veh.departure w.work).2 = x := Option.some.inj hx
    simp only [figured, classOf]
    refine ⟨fun urgent => if_pos urgent, fun calm time => ?_, fun calm short => ?_, fun current limit => ?_⟩
    · rw [if_neg (Nat.not_le.2 calm), if_pos time]
    · rw [if_neg (Nat.not_le.2 calm), if_neg (Int.not_le.2 short)]
    · rw [if_neg (by omega)]
      split <;> decide

/-! ## The end of a scan (R79 to R81) -/

/-- Settles O39: the list in the order of R80 is a permutation in order, and it takes the place of the ranked list. -/
theorem scanCompleteOutcome : Obligations.ScanCompleteOutcome := by
  intro s run hr done
  refine ⟨rankedOrder run.newList, rankedOrder_perm _, rankedOrder_sorted _, ?_⟩
  have walked : noEntryBetween s run.cursor Config.validatorEntries = true := noEntryBetween_of s run.cursor 1024 done
  simp only [exec, execScanComplete, hr, if_pos walked]
  rfl

end Sys2Proof.Machine

/-! PROOFS. What an outcome does to its slot: errors and the retry limit, PUT, PROBE and FETCH, and retirement (R91 to R104). -/

namespace Sys2Proof.Machine

/-! ## The fields of a bound slot, and its errors (R92) -/

/-- The state with a slot's binding replaced. -/
def rebound (k : SlotIx) (s : State) (q : Binding) : State := setSlot k { s.slot k with binding := some q } s

section
variable {s : State} {k : SlotIx} {b : Binding} (hb : (s.slot k).binding = some b)
include hb

theorem modBinding_rebound (f : Binding → Binding) : modBinding k f s = rebound k s (f b) := modBinding_bound k f s b hb

/-- The end of a binding does not depend on its error count. -/
theorem endSlot_errors (c : EndCond) (u : Bool) (f : Binding → Nat) :
    endSlot k c u (modBinding k (fun q => { q with errors := f q }) s) = endSlot k c u s :=
  endSlot_modBinding k c u s b _ hb rfl rfl rfl rfl rfl rfl rfl

/-- Below the retry limit an error is counted and has its effect (R92). -/
theorem slotError_below (effect : Binding → Binding) (below : b.errors + 1 < s.policy.retryLimit) :
    slotError k b effect s = rebound k s (effect { b with errors := b.errors + 1 }) := by
  rw [slotError, if_neg (Nat.not_le.2 below), modBinding_rebound hb]

/-- At the retry limit the slot ends in place of the effect (R92, R104). -/
theorem slotError_limit (effect : Binding → Binding) (limit : s.policy.retryLimit ≤ b.errors + 1) :
    slotError k b effect s =
      if b.step = .abandon then endSlot k .superseded true s else endSlot k .retryExhausted false s := by
  rw [slotError, if_pos limit, endExhausted, endSlot_errors hb .superseded true (fun q => q.errors + 1),
    endSlot_errors hb .retryExhausted false (fun q => q.errors + 1)]

/-! ## The slot's state picks what an outcome does (R91, R103) -/

theorem slotOutcome_send (h : b.state = .send) (x : SlotOutcome) : slotOutcome k false x s = putOutcome k b x s := by
  simp [slotOutcome, hb, h]

theorem slotOutcome_await (h : b.state = .await) (x : SlotOutcome) : slotOutcome k false x s = fetchOutcome k b x s := by
  simp [slotOutcome, hb, h]

theorem slotOutcome_probe (h : b.state = .probe) (x : SlotOutcome) : slotOutcome k false x s = probeOutcome k b x s := by
  simp [slotOutcome, hb, h]

theorem slotOutcome_countOnly (x : SlotOutcome) : slotOutcome k true x s = countOnlyOutcome k b x s := by
  simp [slotOutcome, hb]

/-- Every error is a slotError, whatever the slot waits for; only the effect differs. -/
theorem slotOutcome_error (countOnly : Bool) : ∃ effect, slotOutcome k countOnly .error s = slotError k b effect s := by
  cases countOnly with
  | true => exact ⟨id, slotOutcome_countOnly hb _⟩
  | false =>
    cases h : b.state with
    | send => exact ⟨fun q => { q with state := .probe }, slotOutcome_send hb h _⟩
    | await => exact ⟨id, slotOutcome_await hb h _⟩
    | probe => exact ⟨id, slotOutcome_probe hb h _⟩

/-! ## The retirement of a slot's object (R103) -/

theorem retireSlot_kept {o : Nat} (h : b.object ≠ o ∨ b.step = .close ∨ b.step = .abandon) : retireSlot o s k = s := by
  have spared : ¬(b.object = o ∧ b.step ≠ .close ∧ b.step ≠ .abandon) := by tauto
  rw [retireSlot, hb]
  exact if_neg spared

theorem retireSlot_abandons (h1 : b.step ≠ .close) (h2 : b.step ≠ .abandon) : retireSlot b.object s k =
    modLane b.lane (markCountOnly k) (rebound k s { b with
      step := .abandon, state := if b.state = .probe then .probe else .send, pendings := 0, superseded := true }) := by
  rw [retireSlot, hb, ← abandonBinding_open b h1 h2, ← modBinding_rebound hb abandonBinding]
  exact if_pos ⟨rfl, h1, h2⟩

end

/-- Settles O41: PUT and PROBE by the slot's state, errors by slotError_below and slotError_limit, retirement by
retireSlot_abandons. -/
theorem putAndProbeOutcomes : Obligations.PutAndProbeOutcomes := by
  intro s k b become hb hbecome
  obtain rfl : become = rebound k s := funext hbecome
  refine ⟨fun send => ⟨fun h => ?taken, fun h => ?abandoned, ?full, fun below => ?putError⟩,
    fun probe => ⟨?ready, ?busy, fun below => ?probeError⟩, fun countOnly limit => ?limit, fun x hx => ?countOnly,
    fun below => ?countOnlyError, fun o => ⟨retireSlot_kept hb, ?retired⟩⟩
  case taken =>
    rw [slotOutcome_send hb send, putOutcome, if_neg h]
    exact modBinding_rebound hb _
  case abandoned =>
    rw [slotOutcome_send hb send, putOutcome, if_pos h]
    exact endSlot_errors hb .superseded false (fun _ => 0)
  case full =>
    rw [slotOutcome_send hb send]
    exact modBinding_rebound hb _
  case putError =>
    rw [slotOutcome_send hb send]
    exact slotError_below hb (fun q => { q with state := .probe }) below
  case ready =>
    rw [slotOutcome_probe hb probe]
    exact modBinding_rebound hb _
  case busy =>
    rw [slotOutcome_probe hb probe]
    exact modBinding_rebound hb _
  case probeError =>
    rw [slotOutcome_probe hb probe]
    exact slotError_below hb id below
  case limit =>
    obtain ⟨effect, e⟩ := slotOutcome_error hb countOnly
    rw [e, slotError_limit hb effect limit]
  case countOnly =>
    rw [slotOutcome_countOnly hb, countOnlyOutcome, if_neg hx]
    exact modBinding_rebound hb _
  case countOnlyError =>
    rw [slotOutcome_countOnly hb]
    exact slotError_below hb id below
  case retired =>
    rintro rfl h1 h2
    refine ⟨_, rfl, ?_⟩
    rw [retireSlot_abandons hb h1 h2]
    refine ⟨rfl, rfl, fun j hj => modLane_lane_other _ _ _ _ hj, fun tr c ht ho => ?_, fun h => ?_⟩
    · rw [modLane_lane_same]
      exact markCountOnly_own k (s.lane b.lane) tr c ht ho
    · rw [modLane_lane_same]
      exact markCountOnly_other k (s.lane b.lane) h

/-! ## The verdicts of a FETCH (R95 to R102) -/

section
variable {s : State} {k : SlotIx} {b : Binding} (hb : (s.slot k).binding = some b)

/-- An advance of a segment also counts its payload (R68, R95, R96). -/
theorem fetchOutcome_segment {n c : Nat} (hn : b.step = .seg n) (hc : c = 1 ∨ c = 2) :
    fetchOutcome k b (.verdict c) s = modBinding k advanceStep (addUseful b.lane (segmentBytes s b n) s) := by
  obtain rfl | rfl := hc
  · simp only [fetchOutcome, hn]
  · simp only [fetchOutcome, hn]

include hb

theorem badCheckOutcome_first (first : b.closeAttempts = 0) :
    (objectState s b.object ≠ some .retiring → badCheckOutcome k b s = rebound k s { b with
      errors := 0, step := .opening, seqBit := false, closeAttempts := 1, pendings := 0, state := .send }) ∧
    (objectState s b.object = some .retiring → badCheckOutcome k b s = rebound k s { b with
      errors := 0, step := .abandon, superseded := true, state := .send, pendings := 0 }) := by
  refine ⟨fun h => ?_, fun h => ?_⟩
  · rw [badCheckOutcome, if_pos first, if_neg h, modBinding_rebound hb]
  · rw [badCheckOutcome, if_pos first, if_pos h, modBinding_rebound hb]

theorem badCheckOutcome_again (again : b.closeAttempts ≠ 0) : badCheckOutcome k b s = endSlot k .objectRejected false s := by
  rw [badCheckOutcome, if_neg again]
  exact endSlot_errors hb .objectRejected false (fun _ => 0)

theorem pendingOutcome_below (below : b.pendings + 1 < s.policy.pendingLimit) : pendingOutcome k b s = rebound k s { b with
    pendings := b.pendings + 1, errors := 0, fetchTime := s.now + (s.lane b.lane).params.turnaround * 1000 } := by
  rw [pendingOutcome, if_pos below, modBinding_rebound hb]

end

theorem pendingOutcome_limit {s : State} {k : SlotIx} {b : Binding} (limit : s.policy.pendingLimit ≤ b.pendings + 1) :
    pendingOutcome k b s = slotError k b (fun q => { q with pendings := 0, state := .send }) s :=
  if_neg (Nat.not_lt.2 limit)

/-- Settles O42: one case for each verdict, each by what fetchOutcome does on it. -/
theorem fetchOutcomes : Obligations.FetchOutcomes := by
  intro s k b become hb await hbecome
  obtain rfl : become = rebound k s := funext hbecome
  have fetch : ∀ x, slotOutcome k false x s = fetchOutcome k b x s := slotOutcome_await hb await
  simp only [fetch]
  refine ⟨fun opening => ?ack, fun n r hn hr c hc => ?segment, modBinding_rebound hb _,
    endSlot_errors hb .refused false (fun _ => 0), endSlot_errors hb .done false (fun _ => 0),
    fun first => (badCheckOutcome_first hb first).1, fun first => (badCheckOutcome_first hb first).2, badCheckOutcome_again hb,
    pendingOutcome_below hb, fun limit below => ?pendingError, fun limit exhausted h => ?pendingEnd, slotError_below hb id⟩
  case ack =>
    simp only [fetchOutcome, opening]
    rw [modBinding_rebound hb, advanceStep, nextStep, opening]
  case segment =>
    have payload : segmentBytes s b n = min b.segmentSize (r.declaredSize - n * b.segmentSize) := by rw [segmentBytes, hr]
    rw [fetchOutcome_segment hn (by simpa using hc), modBinding_rebound (s := addUseful b.lane _ s) hb, payload, advanceStep, nextStep, hn]
    rfl
  case pendingError =>
    exact (pendingOutcome_limit limit).trans (slotError_below hb _ below)
  case pendingEnd =>
    exact (pendingOutcome_limit limit).trans ((slotError_limit hb _ exhausted).trans (if_neg h))

end Sys2Proof.Machine

/-! PROOFS. SET_POLICY (R86, R92, R108, R154, R162). -/

namespace Sys2Proof.Machine

/-! ## The slots at a new retry limit (R108) -/

/-- A slot record after the retry limit has been applied to it. -/
def limitedSlot (limit : Nat) (r : Slot) : Slot :=
  match r.binding with
  | none => r
  | some b =>
    if limit ≤ b.errors then (if b.step = .abandon then ⟨none, .superseded, true⟩ else ⟨none, .retryExhausted, false⟩) else r

theorem limitedSlot_reached {limit : Nat} {r : Slot} {b : Binding} (hb : r.binding = some b) (h : limit ≤ b.errors) :
    limitedSlot limit r = if b.step = .abandon then ⟨none, .superseded, true⟩ else ⟨none, .retryExhausted, false⟩ := by
  simp only [limitedSlot, hb, if_pos h]

theorem limitedSlot_below {limit : Nat} {r : Slot} (h : ∀ b, r.binding = some b → b.errors < limit) : limitedSlot limit r = r := by
  unfold limitedSlot
  split
  · rfl
  · exact if_neg (Nat.not_le.2 (h _ ‹_›))

/-- What the limit has ended it leaves ended. -/
theorem limitedSlot_idem (limit : Nat) (r : Slot) : limitedSlot limit (limitedSlot limit r) = limitedSlot limit r := by
  by_cases h : ∃ b, r.binding = some b ∧ limit ≤ b.errors
  · obtain ⟨b, hb, h⟩ := h
    rw [limitedSlot_reached hb h]
    split <;> rfl
  · have below : ∀ b, r.binding = some b → b.errors < limit := fun b hb => Nat.not_le.1 fun hl => h ⟨b, hb, hl⟩
    rw [limitedSlot_below below, limitedSlot_below below]

theorem endAtLimit_below {limit : Nat} {s : State} {k : SlotIx} (h : ∀ b, (s.slot k).binding = some b → b.errors < limit) :
    endAtLimit limit s k = s := by
  unfold endAtLimit
  split
  · rfl
  · exact if_neg (Nat.not_le.2 (h _ ‹_›))

theorem endAtLimit_reached {limit : Nat} {s : State} {k : SlotIx} {b : Binding} (hb : (s.slot k).binding = some b)
    (h : limit ≤ b.errors) : endAtLimit limit s k =
      if b.step = .abandon then endSlot k .superseded true s else endSlot k .retryExhausted false s := by
  simp only [endAtLimit, hb, if_pos h, endExhausted]

/-- The turn of one slot changes no other slot. -/
theorem endAtLimit_slot (limit : Nat) (s : State) (k j : SlotIx) :
    (endAtLimit limit s k).slot j = if j = k then limitedSlot limit (s.slot j) else s.slot j := by
  by_cases h : ∃ b, (s.slot k).binding = some b ∧ limit ≤ b.errors
  · obtain ⟨b, hb, h⟩ := h
    have superseded := endSlot_effect k .superseded true s b hb
    have exhausted := endSlot_effect k .retryExhausted false s b hb
    rw [endAtLimit_reached hb h]
    by_cases hj : j = k
    · subst hj
      rw [if_pos rfl, limitedSlot_reached hb h]
      split
      · exact superseded.slot_same
      · exact exhausted.slot_same
    · rw [if_neg hj]
      split
      · exact superseded.slot_other j hj
      · exact exhausted.slot_other j hj
  · have below : ∀ b, (s.slot k).binding = some b → b.errors < limit := fun b hb => Nat.not_le.1 fun hl => h ⟨b, hb, hl⟩
    rw [endAtLimit_below below]
    split
    · subst j
      exact (limitedSlot_below below).symm
    · rfl

theorem endAtLimit_foldl_slot (limit : Nat) (l : List SlotIx) (s : State) (j : SlotIx) :
    (l.foldl (endAtLimit limit) s).slot j = if j ∈ l then limitedSlot limit (s.slot j) else s.slot j := by
  induction l generalizing s with
  | nil => rfl
  | cons k l ih =>
    rw [List.foldl_cons, ih, endAtLimit_slot]
    by_cases hk : j = k
    · simp [hk, limitedSlot_idem]
    · simp [hk]

theorem endAtLimit_foldl_below {limit : Nat} {s : State} (h : ∀ k b, (s.slot k).binding = some b → b.errors < limit)
    (l : List SlotIx) : l.foldl (endAtLimit limit) s = s := by
  induction l with
  | nil => rfl
  | cons k l ih => rw [List.foldl_cons, endAtLimit_below (h k), ih]

/-- Any function that ends the slots at the limit, and no other slot, is the model's. -/
theorem eq_endAtLimit {limit : Nat} {one : State → SlotIx → State}
    (below : ∀ w k, (∀ b, (w.slot k).binding = some b → b.errors < limit) → one w k = w)
    (abandoned : ∀ w k b, (w.slot k).binding = some b → limit ≤ b.errors → b.step = .abandon →
      one w k = endSlot k .superseded true w)
    (other : ∀ w k b, (w.slot k).binding = some b → limit ≤ b.errors → b.step ≠ .abandon →
      one w k = endSlot k .retryExhausted false w) : one = endAtLimit limit := by
  funext w k
  by_cases h : ∃ b, (w.slot k).binding = some b ∧ limit ≤ b.errors
  · obtain ⟨b, hb, h⟩ := h
    rw [endAtLimit_reached hb h]
    split
    · exact abandoned w k b hb h ‹_›
    · exact other w k b hb h ‹_›
  · have h : ∀ b, (w.slot k).binding = some b → b.errors < limit := fun b hb => Nat.not_le.1 fun hl => h ⟨b, hb, hl⟩
    rw [below w k h, endAtLimit_below h]

/-! ## The request (R154, R162) -/

theorem clampTo_eq_self (lo hi n : Nat) : clampTo lo hi n = n ↔ lo ≤ n ∧ n ≤ hi := by
  unfold clampTo
  split_ifs <;> omega

/-- A masked value is taken as carried exactly when it is in its range (R154). -/
theorem unclamped_iff (mask bit lo hi n : Nat) :
    unclamped mask bit lo hi n = true ↔ (mask.testBit bit = true → lo ≤ n ∧ n ≤ hi) := by
  rw [unclamped, Bool.or_eq_true, decide_eq_true_iff, clampTo_eq_self]
  cases mask.testBit bit <;> simp

theorem policyUnclamped_iff (mask : Nat) (f : Policy) : policyUnclamped mask f = true ↔
    (mask.testBit 0 = true → 1 ≤ f.retryLimit ∧ f.retryLimit ≤ 7) ∧ (mask.testBit 1 = true → 1 ≤ f.pendingLimit ∧ f.pendingLimit ≤ 15) ∧
    (mask.testBit 2 = true → 1 ≤ f.urgentLag ∧ f.urgentLag ≤ 32) ∧ (mask.testBit 3 = true → 1 ≤ f.scanPeriod ∧ f.scanPeriod ≤ 60) ∧
    (mask.testBit 4 = true → 10 ≤ f.silenceLimit ∧ f.silenceLimit ≤ 3600) ∧
    (mask.testBit 5 = true → 1 ≤ f.wakeMaximum ∧ f.wakeMaximum ≤ 50) ∧ (mask.testBit 6 = true → 1 ≤ f.relayDepth ∧ f.relayDepth ≤ 2) ∧
    (mask.testBit 7 = true → f.reportThreshold ≤ 3) ∧ (mask.testBit 8 = true → f.depotNumber ≤ 65535) := by
  simp only [policyUnclamped, Bool.and_eq_true, and_assoc, unclamped_iff, Nat.zero_le, true_and]

theorem setPolicy_slot (p : Policy) (s : State) (k : SlotIx) : (setPolicy p s).slot k = limitedSlot p.retryLimit (s.slot k) := by
  have turns := endAtLimit_foldl_slot p.retryLimit allSlots s k
  rw [if_pos (mem_allSlots k)] at turns
  unfold setPolicy
  generalize allSlots.foldl (endAtLimit p.retryLimit) s = u at turns ⊢
  exact turns

theorem exec_setPolicy {s : State} {tag : Byte} {mask : Nat} {f : Policy} (hq : Held s tag (.setPolicy mask f)) :
    exec .setPolicy s = .next (if 512 ≤ mask then refuse 0x15 tag .badField s else chooseAll (answer 0x15 tag
      (if policyUnclamped mask f then .ok else .clamped) (policyBytes (writtenPolicy mask f s.policy))
      (setPolicy (writtenPolicy mask f s.policy) s))) := by
  simp only [exec, execSetPolicy, show s.host.processor = _ from hq]

/-- Settles O44: the slots by endAtLimit_foldl_slot, which a choice point leaves as they are since they are FREE. -/
theorem setPolicyOutcome : Obligations.SetPolicyOutcome := by
  intro s tag mask f p fields hq
  rw [exec_setPolicy hq]
  refine ⟨fun beyond => by rw [if_pos beyond]; rfl, fun within hp hfields => ?_, policyUnclamped_iff mask f⟩
  obtain rfl : p = writtenPolicy mask f s.policy := hp
  obtain rfl : fields = policyBytes (writtenPolicy mask f s.policy) := hfields
  rw [if_neg (Nat.not_le.2 within)]
  generalize writtenPolicy mask f s.policy = p
  generalize hst : (if policyUnclamped mask f then Status.ok else Status.clamped) = st
  have chosen := chosen_chooseAll (answer 0x15 tag st (policyBytes p) (setPolicy p s))
  refine ⟨_, st, rfl, ?policy, ?reply, ?idle, ?status, ?ok, fun k b hb limit => ?ended, fun below => ?kept,
    allSlots.foldl (endAtLimit p.retryLimit) s, rfl, fun one below abandoned other => ?turns⟩
  case policy => exact chosen.policy_eq
  case reply => rw [chosen.host_eq]; rfl
  case idle => rw [chosen.host_eq]; rfl
  case status => rw [← hst]; split <;> simp
  case ok => rw [← hst]; split <;> simp [*]
  case ended =>
    have slot : (answer 0x15 tag st (policyBytes p) (setPolicy p s)).slot k = limitedSlot p.retryLimit (s.slot k) :=
      (answer_slot ..).trans (setPolicy_slot p s k)
    rw [limitedSlot_reached hb limit] at slot
    rw [chosen.free_eq k (by rw [slot]; split <;> rfl), slot]
  case kept =>
    rw [setPolicy, endAtLimit_foldl_below below]
    rfl
  case turns => rw [eq_endAtLimit below abandoned other]; rfl

end Sys2Proof.Machine

/-! PROOFS. The ends of a transaction and fetch times (R94, R106, R122 to R128), and RESET_LANE and breaks (R105, R138 to R140). -/

namespace Sys2Proof.Machine

/-! ## The ends of a transaction -/

/-- A transaction's end as an update of the state (R126). -/
theorem endTransaction_eq {s : State} {i : LaneIx} (tr : Transaction) (at_ : Time) (n : Nat) :
    endTransaction i tr n (advanceTo at_ s) = { s with
      now := max s.now at_,
      lanes := s.lanes.set i { s.lane i with
        spent := addSat32 (s.lane i).spent (tr.requestBytes + n), transaction := none, reception := none } } := rfl

section
variable {s : State} {i : LaneIx}

/-- Without a transaction in flight there is nothing to end. -/
theorem transactionEnds_none (ht : (s.lane i).transaction = none) : exec (.stateSendEnd i) s = .next s ∧
    exec (.replyTimeout i) s = .next s ∧ ∀ n, exec (.transactionBudgetEnd i n) s = .next s := by
  simp only [exec, execStateSendEnd, execReplyTimeout, execTransactionBudgetEnd, ht, implies_true, and_self]

variable {tr : Transaction} (ht : (s.lane i).transaction = some tr)
include ht

/-- A STATE answer ends with its last byte; it waits for no reply. -/
theorem transactionEnds_answer (ho : tr.owner = .answer) :
    exec (.stateSendEnd i) s = .next (chooseAll (endTransaction i tr 0 (advanceTo tr.sendEnd s))) ∧
    exec (.replyTimeout i) s = .next s ∧ ∀ n, exec (.transactionBudgetEnd i n) s = .next s := by
  simp only [exec, execStateSendEnd, execReplyTimeout, execTransactionBudgetEnd, ht, ho, true_or, if_true, implies_true, and_self]

/-- A request with a reply fails at its timeout, unless a byte of the reply has come, or at the end of its budget. -/
theorem transactionEnds_request (ho : tr.owner ≠ .answer) : exec (.stateSendEnd i) s = .next s ∧
    ((s.lane i).reception = none → exec (.replyTimeout i) s = .next (chooseAll (failTransaction i tr 0 (advanceTo tr.replyBy s)))) ∧
    ((s.lane i).reception ≠ none → exec (.replyTimeout i) s = .next s) ∧
    ∀ n, exec (.transactionBudgetEnd i n) s = .next (chooseAll (failTransaction i tr n (advanceTo tr.budgetEnd s))) := by
  refine ⟨?_, fun silent => ?_, fun begun => ?_, fun n => ?_⟩
  · simp only [exec, execStateSendEnd, ht, if_neg ho]
  · simp only [exec, execReplyTimeout, ht, ho, silent, Option.isSome_none, Bool.false_eq_true, or_self, if_false]
  · simp only [exec, execReplyTimeout, ht, Option.isSome_iff_ne_none.2 begun, or_true, if_true]
  · simp only [exec, execTransactionBudgetEnd, ht, if_neg ho]

end

/-- A fetch time matters to a slot in AWAIT alone (R94). -/
theorem exec_fetchTimeReached (s : State) (k : SlotIx) :
    (∀ b, (s.slot k).binding = some b → b.state = .await →
      exec (.fetchTimeReached k) s = .next (chooseAll (advanceTo b.fetchTime s))) ∧
    ((∀ b, (s.slot k).binding = some b → b.state ≠ .await) → exec (.fetchTimeReached k) s = .next s) := by
  refine ⟨fun b hb await => ?_, fun other => ?_⟩
  · simp only [exec, execFetchTimeReached, hb, if_pos await]
  · cases hb : (s.slot k).binding with
    | none => simp only [exec, execFetchTimeReached, hb]
    | some b => simp only [exec, execFetchTimeReached, hb, if_neg (other b hb)]

/-- Settles O49: by the transaction in flight, which is none, a STATE answer or a request with a reply. -/
theorem transactionEnds : Obligations.TransactionEnds := by
  refine ⟨?inFlight, fun s i => transactionEnds_none, fun s x => ⟨fun k countOnly => rfl, ?nobody⟩, exec_fetchTimeReached⟩
  case inFlight =>
    intro s i l tr ended hl ht hended
    subst hl
    have ends (at_ : Time) (n : Nat) : endTransaction i tr n (advanceTo at_ s) = ended at_ n :=
      (endTransaction_eq tr at_ n).trans (hended at_ n).symm
    simp only [← ends]
    exact ⟨transactionEnds_answer ht, transactionEnds_request ht⟩
  case nobody =>
    intro o ho
    simp only [List.mem_cons, List.not_mem_nil, or_false] at ho
    obtain rfl | rfl | rfl := ho <;> rfl

/-! ## RESET_LANE (R138, R140) -/

section
variable {s : State} {tag : Byte} {i : LaneIx}

theorem resetLane_badLane {lane : Nat} (hq : Held s tag (.resetLane lane)) (beyond : 6 ≤ lane) :
    exec .resetLane s = .next (replied 0x93 tag .badField [] s) := by
  simp only [exec, execResetLane, show s.host.processor = _ from hq, laneOf_of_le beyond]
  rfl

theorem resetLane_off (hq : Held s tag (.resetLane i.val)) (off : (s.lane i).state = .off) :
    exec .resetLane s = .next (replied 0x93 tag .laneOff [] s) := by
  simp only [exec, execResetLane, show s.host.processor = _ from hq, laneOf_val, off]
  rfl

/-- A lane in RESETTING only has its fault mark cleared. -/
theorem resetLane_resetting (hq : Held s tag (.resetLane i.val)) (resetting : (s.lane i).state = .resetting) :
    exec .resetLane s = .next (replied 0x93 tag .ok (leBytes 1 0) (clearFault i s)) := by
  simp only [exec, execResetLane, show s.host.processor = _ from hq, laneOf_val, resetting]
  rfl

theorem resetLane_resets (hq : Held s tag (.resetLane i.val)) (on : (s.lane i).state ≠ .off)
    (other : (s.lane i).state ≠ .resetting) : exec .resetLane s = .next (chooseAll (replied 0x93 tag .ok (leBytes 1 (boundOn s i))
      (clearFault i (enterResetting i (heardBytes s.now (s.lane i)) s)))) := by
  simp only [exec, execResetLane, show s.host.processor = _ from hq, laneOf_val]
  cases h : (s.lane i).state with
  | off => exact absurd h on
  | resetting => exact absurd h other
  | starting => rfl
  | active => rfl
  | quiet => rfl

end

/-! ## Breaks (R138 to R140) -/

/-- A break is heard by a lane that listens, or whose preamble has run out (R140, log entry 21). -/
theorem hearsBreak_iff (now : Time) (l : Lane) :
    hearsBreak now l = true ↔ listening now l = true ∨ (l.state = .starting ∧ l.deadline ≤ now) := by
  simp [hearsBreak]

/-- The break count, within its range (R140). -/
theorem raiseBreaks_eq {n : Nat} (h : n ≤ 65535) : raiseBreaks n = min (n + 1) 65535 := by
  unfold raiseBreaks
  split <;> omega

/-- The state in which a break has been counted. -/
def breakCounted (i : LaneIx) (breaks : Nat) (at_ : Time) (s : State) : State :=
  modLane i (fun l => { l with breaks := breaks, fault := true }) (advanceTo at_ s)

theorem receiveBreak_eq (i : LaneIx) (n : Nat) (at_ : Time) {s : State} (h : (s.lane i).breaks ≤ 65535) :
    receiveBreak i n (advanceTo at_ s) =
      (if (s.lane i).fault = true then enterResetting i n (breakCounted i (min ((s.lane i).breaks + 1) 65535) at_ s)
      else submit (.laneFault i (s.lane i).state (min ((s.lane i).breaks + 1) 65535))
        (enterResetting i n (breakCounted i (min ((s.lane i).breaks + 1) 65535) at_ s))) := by
  rw [← raiseBreaks_eq h]
  rfl

theorem exec_laneBreakReceived (s : State) (i : LaneIx) (n : Nat) (at_ : Time) : exec (.laneBreakReceived i n at_) s =
    if hearsBreak (max s.now at_) (s.lane i) = true then .next (chooseAll (receiveBreak i n (advanceTo at_ s))) else .next s := rfl

theorem exec_laneBreakEnd {s : State} {i : LaneIx} (h : (s.lane i).state = .resetting) : exec (.laneBreakEnd i) s =
    .next { enterStarting i (advanceTo (s.lane i).deadline s) with dispatchDue := true } := if_pos h

/-- Settles O53: the entry to RESETTING is entered_enterResetting, for RESET_LANE and for a break that has been counted. -/
theorem breaksAndReset : Obligations.BreaksAndReset := by
  refine ⟨fun _ _ _ => rfl, fun s tag lane hq => ⟨resetLane_badLane hq, ?reset⟩, ?heard, ?unheard, ?ended⟩
  case reset =>
    rintro i rfl
    exact ⟨resetLane_off hq, resetLane_resetting hq, fun on other =>
      ⟨_, entered_enterResetting i _ s on, resetLane_resets hq on other⟩⟩
  case heard =>
    intro s v i l n breaks at_ now hl hnow hears hbreaks range hv
    subst hl hnow hbreaks
    obtain rfl : v = breakCounted i (min ((s.lane i).breaks + 1) 65535) at_ s := hv
    rw [← hearsBreak_iff] at hears
    refine ⟨_, entered_enterResetting i n _ ?_, ?_⟩
    · rw [breakCounted, modLane_lane_same]
      exact on_of_hearsBreak hears
    · rw [exec_laneBreakReceived, if_pos hears, receiveBreak_eq i n at_ range]
  case unheard =>
    intro s i l n at_ now hl hnow deaf notStarting
    subst hl hnow
    have silent : ¬hearsBreak (max s.now at_) (s.lane i) = true := by
      rw [hearsBreak_iff, deaf]
      rintro (h | ⟨starting, passed⟩)
      · exact absurd h Bool.false_ne_true
      · exact notStarting.elim (fun h => h starting) (fun h => absurd passed (Nat.not_le.2 h))
    rw [exec_laneBreakReceived, if_neg silent]
  case ended =>
    intro s i l now hl resetting hnow
    subst hl hnow
    exact exec_laneBreakEnd resetting

end Sys2Proof.Machine

/-! PROOFS. DISPATCH_WALK (R82, R86 to R88, R113, R129 to R132). -/

namespace Sys2Proof.Machine

/-! ## The lowest FREE slot (R88) -/

theorem freeSlot_eq_none {s : State} : freeSlot s = none ↔ ∀ k, (s.slot k).binding ≠ none := by
  simp [freeSlot, List.find?_eq_none, mem_allSlots]

/-- The lowest FREE slot is the FREE one below which every slot is bound. -/
theorem freeSlot_eq_some {s : State} {k : SlotIx} (free : (s.slot k).binding = none)
    (below : ∀ j, j < k → (s.slot j).binding ≠ none) : freeSlot s = some k := by
  obtain ⟨before, after, parts⟩ := List.append_of_mem (mem_allSlots k)
  have ascending : allSlots.Pairwise (· < ·) := by decide
  rw [parts, List.pairwise_append] at ascending
  refine List.find?_eq_some_iff_append.2 ⟨by rw [free]; rfl, before, after, parts, fun j hj => ?_⟩
  have bound := below j (ascending.2.2 j hj k List.mem_cons_self)
  simpa [Option.isSome_iff_ne_none] using bound

/-! ## The ranked entries that can be bound (R82, R87) -/

theorem nextItem_full {s : State} {v : Validator} (h : v.plan = .full) : nextItem s v = v.work.head? := by
  rw [nextItem, h]

theorem nextItem_blockOnly {s : State} {v : Validator} (h : v.plan = .blockOnly) : nextItem s v = v.work.find? (isBlock s) := by
  rw [nextItem, h]
  rfl

theorem mayBind_iff (s : State) (v : Validator) (veh : Vehicle) : mayBind s v veh = true ↔ veh.state = .present ∧
    (s.lane veh.lane).state ≠ .off ∧ (s.lane veh.lane).state ≠ .resetting ∧ v.boundSlot = none ∧
    boundOn s veh.lane < (s.lane veh.lane).params.slotsPerLane ∧ veh.boundSlots < s.policy.relayDepth := by
  simp [mayBind, and_assoc]

/-- A live entry, taken apart (R82). -/
theorem liveEntry_eq_some {s : State} {e : RankedEntry} {v : Validator} {vi : Nat} {veh : Vehicle}
    (h : liveEntry s e = some (v, vi, veh)) : look s.validators e.index = some v ∧ v.vehicle = some vi ∧
      look s.vehicles vi = some veh ∧ v.serial = e.serial ∧ v.work ≠ [] ∧ v.flags.rejected = false := by
  unfold liveEntry at h
  split at h
  · cases h
  · rename_i entry
    split at h
    · cases h
    · rename_i attached
      split at h
      · cases h
      · rename_i vehicle
        split at h
        · rename_i live
          obtain ⟨serial, work, _, rejected⟩ := live
          cases h
          exact ⟨entry, attached, vehicle, serial, work, rejected⟩
        · cases h

/-- What a walk binds. -/
def candidate (e : RankedEntry) (v : Validator) (vi : Nat) (veh : Vehicle) (o : Nat) (r : ContentObject) : Candidate :=
  ⟨e.index, v, vi, veh, o, r.declaredSize⟩

theorem Bindable.nextItem_eq {s : State} {e : RankedEntry} {v : Validator} {vi : Nat} {veh : Vehicle} {o : Nat} {r : ContentObject}
    (h : Bindable s e v vi veh o r) : nextItem s v = some o := by
  cases plan : v.plan with
  | full => rw [nextItem_full plan, h.full plan]
  | blockOnly => rw [nextItem_blockOnly plan, h.blockOnly plan]

theorem Bindable.candidateOf_eq {s : State} {e : RankedEntry} {v : Validator} {vi : Nat} {veh : Vehicle} {o : Nat} {r : ContentObject}
    (h : Bindable s e v vi veh o r) : candidateOf s e = some (candidate e v vi veh o r) := by
  have live : liveEntry s e = some (v, vi, veh) := by
    simp only [liveEntry, h.entry, h.attached, h.vehicle]
    exact if_pos ⟨h.serial, h.work, by rw [h.present]; rfl, h.rejected⟩
  have may : mayBind s v veh = true :=
    (mayBind_iff s v veh).2 ⟨h.present, h.lane.1, h.lane.2, h.unbound, h.laneLimit, h.depth⟩
  simp only [candidateOf, live, if_pos may, h.nextItem_eq, h.object, if_pos h.published]
  rfl

theorem bindable_of_candidateOf {s : State} {e : RankedEntry} {c : Candidate} (h : candidateOf s e = some c) :
    ∃ r, Bindable s e c.validator c.vehicleIndex c.vehicle c.object r := by
  unfold candidateOf at h
  split at h
  · cases h
  · rename_i v vi veh live
    obtain ⟨entry, attached, vehicle, serial, work, rejected⟩ := liveEntry_eq_some live
    split at h
    · rename_i may
      obtain ⟨present, on, awake, unbound, laneLimit, depth⟩ := (mayBind_iff s v veh).1 may
      split at h
      · cases h
      · rename_i o next
        split at h
        · cases h
        · rename_i r object
          split at h
          · rename_i published
            cases h
            exact ⟨r, entry, serial, work, rejected, attached, vehicle, present, ⟨on, awake⟩, unbound, laneLimit, depth,
              fun plan => (nextItem_full plan).symm.trans next, fun plan => (nextItem_blockOnly plan).symm.trans next,
              object, published⟩
          · cases h
    · cases h

/-- An entry that no reading makes bindable is passed over. -/
theorem candidateOf_eq_none {s : State} {e : RankedEntry} (h : ∀ v vi veh o r, ¬Bindable s e v vi veh o r) :
    candidateOf s e = none := by
  refine Option.eq_none_iff_forall_ne_some.2 fun c hc => ?_
  obtain ⟨r, bindable⟩ := bindable_of_candidateOf hc
  exact h _ _ _ _ r bindable

/-! ## The binding (R88, R129, R132) -/

/-- A lane with a bound slot is not idle: its timer stops and its mark goes (R129, R133). -/
theorem retestIdle_serving {s : State} {i : LaneIx} {k : SlotIx} {b : Binding} (hb : (s.slot k).binding = some b) (hi : b.lane = i) :
    retestIdle i s = modLane i (fun l => { l with quietTimer := .stopped, frameWake := false }) s := by
  have serving : idleBase s i = false := Bool.eq_false_iff.2 fun idle => ((idleBase_iff s i).1 idle).1 k b hb hi
  cases marked : (s.lane i).frameWake with
  | true => simp [retestIdle, marked, serving]
  | false =>
    simp only [retestIdle, marked, laneIdle, serving, Bool.and_false, Bool.false_eq_true, if_false]
    exact modLane_congr i _ _ s (by rw [← marked])

/-- A lane record once a slot has been bound to the lane. -/
def servingLane (now : Time) (l : Lane) : Lane :=
  if l.state = .quiet then
    { l with state := .starting, phase := .none, reception := none, spent := spentAfter l 0, powerSave := false,
             quietMaxEnd := none, leftQuiet := some now, quietTimer := .stopped, frameWake := false,
             deadline := now + sendMicros l.rate l.params.preamble }
  else { l with quietTimer := .stopped, frameWake := false }

/-- A lane that a slot is bound to leaves QUIET, and its timer is stopped. -/
theorem wakeAndRetest {s : State} {i : LaneIx} {k : SlotIx} {b : Binding} (hb : (s.slot k).binding = some b) (hi : b.lane = i) :
    retestIdle i (if (s.lane i).state = .quiet then leaveQuiet i false s else s) = modLane i (servingLane s.now) s := by
  split
  · rename_i quiet
    rw [leaveQuiet_eq, retestIdle_serving (s := modLane i _ s) hb hi, modLane_modLane]
    exact modLane_congr i _ _ s (if_pos quiet).symm
  · rename_i awake
    rw [retestIdle_serving hb hi]
    exact modLane_congr i _ _ s (if_neg awake).symm

/-- The state in which slot `k` is bound to an entry, its lane not yet seen to (R88). -/
def boundState (s : State) (k : SlotIx) (e : RankedEntry) (v : Validator) (vi : Nat) (veh : Vehicle) (o : Nat) (r : ContentObject) :
    State :=
  { s with
    objects := put s.objects o { r with refs := r.refs + 1 },
    slots := s.slots.set k { s.slot k with binding := some (newBinding s (candidate e v vi veh o r)) },
    validators := put s.validators e.index { v with boundSlot := some k },
    vehicles := put s.vehicles vi { veh with boundSlots := veh.boundSlots + 1 } }

theorem boundState_slot_same (s : State) (k : SlotIx) (e : RankedEntry) (v : Validator) (vi : Nat) (veh : Vehicle) (o : Nat)
    (r : ContentObject) : ((boundState s k e v vi veh o r).slot k).binding = some (newBinding s (candidate e v vi veh o r)) :=
  congrArg Slot.binding (setSlot_slot_same k _ s)

theorem boundState_slot_other (s : State) (k : SlotIx) (e : RankedEntry) (v : Validator) (vi : Nat) (veh : Vehicle) (o : Nat)
    (r : ContentObject) {j : SlotIx} (hj : j ≠ k) : (boundState s k e v vi veh o r).slot j = s.slot j :=
  setSlot_slot_other k j _ s hj

section
variable {s : State} {e : RankedEntry} {v : Validator} {vi : Nat} {veh : Vehicle} {o : Nat} {r : ContentObject}

theorem Bindable.bindSlot_eq (h : Bindable s e v vi veh o r) (k : SlotIx) : bindSlot k (candidate e v vi veh o r) s =
    modLane veh.lane (servingLane s.now) (boundState s k e v vi veh o r) := by
  have taken : takeRef o s = { s with objects := put s.objects o { r with refs := r.refs + 1 } } := by
    rw [takeRef, modObject, h.object]
  have bound : modVehicle vi (fun v => { v with boundSlots := v.boundSlots + 1 })
      (modValidator e.index (fun v => { v with boundSlot := some k })
        (setSlot k { s.slot k with binding := some (newBinding s (candidate e v vi veh o r)) } (takeRef o s))) =
      boundState s k e v vi veh o r := by
    have entry (q : Slot) : look (setSlot k q (takeRef o s)).validators e.index = some v := by rw [taken]; exact h.entry
    rw [modValidator_of_look (entry _), modVehicle_of_look (r := veh) (by rw [taken]; exact h.vehicle), taken]
    rfl
  have woken : bindSlot k (candidate e v vi veh o r) s = retestIdle veh.lane
      (if ((boundState s k e v vi veh o r).lane veh.lane).state = .quiet then leaveQuiet veh.lane false (boundState s k e v vi veh o r)
      else boundState s k e v vi veh o r) := by
    rw [← bound]
    rfl
  exact woken.trans (wakeAndRetest (i := veh.lane) (boundState_slot_same s k e v vi veh o r) rfl)

/-- A slot is still FREE after the binding exactly when another one was. -/
theorem Bindable.freeSlot_isSome (h : Bindable s e v vi veh o r) (k : SlotIx) :
    (freeSlot (bindSlot k (candidate e v vi veh o r) s)).isSome = true ↔ ∃ j, j ≠ k ∧ (s.slot j).binding = none := by
  have same := boundState_slot_same s k e v vi veh o r
  rw [h.bindSlot_eq, Option.isSome_iff_ne_none, Ne, freeSlot_eq_none]
  simp only [modLane_slot, not_forall, not_not]
  refine ⟨fun ⟨j, free⟩ => ?_, fun ⟨j, hj, free⟩ => ⟨j, by rw [boundState_slot_other s k e v vi veh o r hj, free]⟩⟩
  have hj : j ≠ k := by
    rintro rfl
    rw [same] at free
    cases free
  exact ⟨j, hj, by rw [← boundState_slot_other s k e v vi veh o r hj, free]⟩

end

/-! ## The walk (R86, R87) -/

theorem exec_dispatchWalk_none {s : State} (due : s.dispatchDue = true) (h : freeSlot s = none) :
    exec .dispatchWalk s = .next { s with dispatchDue := false } := by
  simp only [exec, execDispatchWalk, due, if_true, h]

theorem exec_dispatchWalk_some {s : State} {k : SlotIx} (due : s.dispatchDue = true) (h : freeSlot s = some k) :
    exec .dispatchWalk s = .next (dispatchWalk k s) := by
  simp only [exec, execDispatchWalk, due, if_true, h]

theorem dispatchWalk_none {s : State} (k : SlotIx) (h : ∀ e ∈ s.scanner.ranked, candidateOf s e = none) :
    dispatchWalk k s = { s with dispatchDue := false } := by
  rw [dispatchWalk, List.findSome?_eq_none_iff.2 h]

theorem dispatchWalk_some {s : State} (k : SlotIx) {before after : List RankedEntry} {e : RankedEntry} {c : Candidate}
    (ranked : s.scanner.ranked = before ++ e :: after) (passed : ∀ e' ∈ before, candidateOf s e' = none)
    (he : candidateOf s e = some c) : dispatchWalk k s =
      chooseAll { bindSlot k c s with dispatchDue := (freeSlot (bindSlot k c s)).isSome } := by
  have first : s.scanner.ranked.findSome? (candidateOf s) = some c := by
    rw [ranked, List.findSome?_append, List.findSome?_eq_none_iff.2 passed, List.findSome?_cons, he]
    rfl
  rw [dispatchWalk, first]

/-- Settles O40: freeSlot_eq_some picks the slot, dispatchWalk_some the entry, and bindSlot_eq says what the binding writes. -/
theorem dispatchWalkOutcome : Obligations.DispatchWalkOutcome := by
  intro s due
  refine ⟨fun bound => exec_dispatchWalk_none due (freeSlot_eq_none.2 bound), fun unbindable => ?nothing,
    fun k before after e v vi veh o r l b hb free below ranked passed bindable hl => ?binds⟩
  case nothing =>
    cases h : freeSlot s with
    | none => exact exec_dispatchWalk_none due h
    | some k =>
      rw [exec_dispatchWalk_some due h, dispatchWalk_none k fun e he => candidateOf_eq_none (unbindable e he)]
  case binds =>
    subst hl hb
    refine ⟨_, bindable.freeSlot_isSome k, ?_⟩
    rw [exec_dispatchWalk_some due (freeSlot_eq_some free below),
      dispatchWalk_some k ranked (fun e' he => candidateOf_eq_none (passed e' he)) bindable.candidateOf_eq]
    generalize (freeSlot (bindSlot k (candidate e v vi veh o r) s)).isSome = again
    rw [bindable.bindSlot_eq]
    rfl

end Sys2Proof.Machine

/-! PROOFS. The choice points of the arbiter, the requests of slots and the bytes of a lane frame (R90, R112, R122 to R128, R166 to
R168). -/

namespace Sys2Proof.Machine

/-! ## Budgets and the time left (R112, R124) -/

theorem fits_iff (s : State) (i : LaneIx) (budget : Nat) :
    fits s i budget = true ↔ budget * 1000 ≤ (s.lane i).roundStart + (s.lane i).inLength * 1000 - s.now := decide_eq_true_iff

theorem not_fits_iff (s : State) (i : LaneIx) (budget : Nat) :
    ¬fits s i budget = true ↔ (s.lane i).roundStart + (s.lane i).inLength * 1000 - s.now < budget * 1000 := by
  rw [fits_iff, Nat.not_le]

/-! The send times and budgets of a STATE answer and of a roll-call, with their bytes counted. -/

theorem sendMicros_state (rate : Nat) : sendMicros rate 23 = ceilDiv 230000000 rate := by simp only [sendMicros, Nat.reduceMul]

theorem stateBudget_eq (l : Lane) : stateBudget l = ceilDiv 230000 l.rate := by simp only [stateBudget, Nat.reduceMul]

theorem sendMicros_rollCall (rate : Nat) : sendMicros rate 11 = ceilDiv 110000000 rate := by simp only [sendMicros, Nat.reduceMul]

theorem rollCallBudget_eq (l : Lane) : replyBudget l 11 11 = ceilDiv 220000 l.rate + l.params.replyTimeout := by
  simp only [replyBudget, Nat.reduceAdd, Nat.reduceMul]

/-! ## What is sent (R122, R125 to R128) -/

/-- A lane record whose frame in progress is cut short by the lane's own sending (R112, R128). -/
theorem cutFrame_eq (n : Nat) (l : Lane) : cutFrame n l = { l with
    reception := none, spent := if l.reception = none then l.spent else spentAfter l n } := by
  unfold cutFrame
  cases l.reception <;> rfl

/-- A lane record that has begun to send a request with a reply (R126). -/
def requestingLane (now : Time) (o : Owner) (x : Exchange) (reply : Nat) (f : LaneFrame) (l : Lane) : Lane :=
  { cutFrame (heardBytes now l) l with
    sent := some f,
    transaction := some ⟨o, x, f.vehicle, f.position, f.seqBit, frameBytes f, now, now + sendMicros l.rate (frameBytes f),
      now + sendMicros l.rate (frameBytes f) + millis l.params.replyTimeout,
      now + millis (replyBudget l (frameBytes f) reply)⟩ }

/-- A lane record that has begun to send a STATE answer (R122). -/
def answeringLane (s : State) (i : LaneIx) (a : Answer) (rest : List Answer) (l : Lane) : Lane :=
  { cutFrame (heardBytes s.now l) l with
    answers := rest, sent := some ⟨0x04, i, a.vehicle, a.position, a.seqBit, depotState s⟩,
    transaction := some ⟨.answer, .state, a.vehicle, a.position, a.seqBit, 23, s.now, s.now + sendMicros l.rate 23,
      s.now + sendMicros l.rate 23, s.now + millis (stateBudget l)⟩ }

theorem sendRequest_eq (i : LaneIx) (o : Owner) (x : Exchange) (reply : Nat) (f : LaneFrame) (s : State) :
    sendRequest i o x reply f s = modLane i (requestingLane s.now o x reply f) s := by
  simp only [sendRequest, cutReception, modLane_modLane]
  rfl

theorem sendAnswer_eq (i : LaneIx) (a : Answer) (rest : List Answer) (s : State) :
    sendAnswer i a rest s = retestIdle i (modLane i (answeringLane s i a rest) s) := by
  simp only [sendAnswer, cutReception, modLane_modLane]
  rfl

theorem sendSlot_eq (i : LaneIx) {k : SlotIx} {s : State} {b : Binding} (hb : (s.slot k).binding = some b) : sendSlot i k s =
    rebound k (modLane i (fun l => { requestingLane s.now (.slot k false) (exchangeOf b) (replyBytes b) (requestFrame s b) l with
      lastServed := k }) s) (countSegment b) := by
  simp only [sendSlot, hb, sendRequest_eq, modLane_modLane]
  exact modBinding_rebound (s := modLane i _ s) hb countSegment

/-! ## The choice (R123, R125, R127) -/

section
variable {s : State} {i : LaneIx}

theorem choose_busy (h : (s.lane i).state ≠ .active ∨ (s.lane i).phase ≠ .service ∨ (s.lane i).transaction ≠ none) :
    choose i s = s := by
  have busy : ¬((s.lane i).state = .active ∧ (s.lane i).phase = .service ∧ (s.lane i).transaction = none) := by tauto
  exact if_neg busy

section
variable (active : (s.lane i).state = .active) (service : (s.lane i).phase = .service) (idle : (s.lane i).transaction = none)
include active service idle

/-- The answer at the head of the queue comes first, if its budget fits. -/
theorem choose_answer {a : Answer} {rest : List Answer} (queue : (s.lane i).answers = a :: rest)
    (h : fits s i (stateBudget (s.lane i)) = true) : choose i s = sendAnswer i a rest s := by
  simp only [choose, active, service, idle, and_self, if_true, queue, if_pos h]

theorem choose_noAnswer (h : (s.lane i).answers = [] ∨ ¬fits s i (stateBudget (s.lane i)) = true) :
    choose i s = chooseRollCall i s := by
  simp only [choose, active, service, idle, and_self, if_true]
  cases queue : (s.lane i).answers with
  | nil => rfl
  | cons a rest => exact if_neg (h.resolve_left (by rw [queue]; exact List.cons_ne_nil a rest))

end

/-- The frame of a roll-call (R125). -/
def rollCallFrame (i : LaneIx) (r : Vehicle) : LaneFrame := ⟨0x15, i, r.number, 0, false, []⟩

theorem frameBytes_rollCallFrame (i : LaneIx) (r : Vehicle) : frameBytes (rollCallFrame i r) = 11 := rfl

theorem chooseRollCall_sends {v : Nat} {r : Vehicle} (due : (s.lane i).rollCallMade = false)
    (candidate : rollCallCandidate s i = some (v, r)) (h : fits s i (replyBudget (s.lane i) 11 11) = true) :
    chooseRollCall i s = modLane i (fun l => { requestingLane s.now .rollCall .probe 11 (rollCallFrame i r) l with
      rollCallMade := true }) s := by
  simp only [chooseRollCall, due, Bool.false_eq_true, if_false, candidate, if_pos h, sendRequest_eq, modLane_modLane, rollCallFrame]

theorem chooseRollCall_passes (h : (s.lane i).rollCallMade = true ∨ rollCallCandidate s i = none ∨
    ¬fits s i (replyBudget (s.lane i) 11 11) = true) : chooseRollCall i s = chooseSlot i s := by
  unfold chooseRollCall
  split
  · rfl
  · rename_i due
    split
    · rfl
    · rename_i candidate
      refine if_neg ((h.resolve_left due).resolve_left ?_)
      rw [candidate]
      exact Option.some_ne_none _

/-- The slots in round-robin order, by number. -/
theorem servingOrder_eq (last : SlotIx) : servingOrder last = (List.range 12).map (fun n => last + 1 + Fin.ofNat 12 n) := by
  have numbered : allSlots = (List.range 12).map (Fin.ofNat 12) := by decide
  rw [servingOrder, numbered, List.map_map]
  rfl

theorem chooseSlot_sends {before after : List SlotIx} {k : SlotIx} (order : servingOrder (s.lane i).lastServed = before ++ k :: after)
    (passed : ∀ j ∈ before, slotEligible s i j = false) (eligible : slotEligible s i k = true) :
    chooseSlot i s = sendSlot i k s := by
  have first : (servingOrder (s.lane i).lastServed).find? (slotEligible s i) = some k :=
    List.find?_eq_some_iff_append.2 ⟨eligible, before, after, order, fun j hj => by rw [passed j hj]; rfl⟩
  rw [chooseSlot, first]

theorem chooseSlot_none (h : ∀ k, slotEligible s i k = false) : chooseSlot i s = s := by
  have nobody : (servingOrder (s.lane i).lastServed).find? (slotEligible s i) = none :=
    List.find?_eq_none.2 fun k _ => by rw [h k]; exact Bool.false_ne_true
  rw [chooseSlot, nobody]

end

/-- The roll-call goes to the vehicle that has not been heard of for longest (R125). -/
theorem oldest_rollCallCandidate {s : State} (i : LaneIx) (set : s.clock.unset = false) (roster : RosterOk s) :
    Oldest Vehicle.lastHeard s.vehicles (fun r => r.state = .present ∧ r.lane = i ∧ r.boundSlots = 0 ∧
      s.policy.silenceLimit ≤ (s.clock.count - r.lastHeard) * 2) (rollCallCandidate s i) := by
  unfold rollCallCandidate
  rw [set, if_neg Bool.false_ne_true]
  exact oldest_filter Vehicle.lastHeard _ 0 s.vehicles _ _ roster.1
    (fun p => by
      rw [Bool.and_eq_true, Bool.and_eq_true, Bool.and_eq_true, beq_iff_eq, beq_iff_eq, beq_iff_eq, decide_eq_true_iff, and_assoc, and_assoc]
      rfl)

/-! ## The requests of slots (R90, R91, R167, R168) -/

/-- A bound slot is counted with the bytes of the frame that it sends (R122). -/
theorem requestBytes_eq (s : State) (b : Binding) : requestBytes s b = (requestFrame s b).body.length + 11 := by
  cases state : b.state with
  | await => simp [requestBytes, requestFrame, requestContent, state]
  | probe => simp [requestBytes, requestFrame, requestContent, state]
  | send =>
    cases step : b.step with
    | close => simp [requestBytes, requestFrame, requestContent, state, step]
    | abandon => simp [requestBytes, requestFrame, requestContent, state, step]
    | opening =>
      simp only [requestBytes, requestFrame, requestContent, state, step, transferHeader]
      cases look s.objects b.object <;> simp [leBytes_length]
    | seg n =>
      simp only [requestBytes, requestFrame, requestContent, state, step, segmentBody, segmentBytes]
      cases look s.objects b.object with
      | none => simp [leBytes_length]
      | some o =>
        simp only [objectBytes, List.length_append, leBytes_length, List.length_map, List.length_range]
        omega

theorem replyBytes_eq (b : Binding) : replyBytes b = if b.state = .await then 12 else 11 := rfl

theorem slotReady_iff (now : Time) (b : Binding) :
    slotReady now b = true ↔ b.state ≠ .await ∨ (b.step ≠ .abandon ∧ b.fetchTime ≤ now) := by
  cases state : b.state <;> simp [slotReady, state]

theorem slotEligible_iff (s : State) (i : LaneIx) (k : SlotIx) : slotEligible s i k = true ↔
    ∃ b, (s.slot k).binding = some b ∧ b.lane = i ∧ (b.state ≠ .await ∨ (b.step ≠ .abandon ∧ b.fetchTime ≤ s.now)) ∧
      (ceilDiv (((requestFrame s b).body.length + 11 + (if b.state = .await then 12 else 11)) * 10000) (s.lane i).rate +
        (s.lane i).params.replyTimeout) * 1000 ≤ (s.lane i).roundStart + (s.lane i).inLength * 1000 - s.now := by
  unfold slotEligible
  cases hb : (s.slot k).binding with
  | none => simp
  | some b =>
    simp only [Bool.and_eq_true, beq_iff_eq, slotReady_iff, fits_iff, replyBudget, requestBytes_eq, replyBytes_eq, and_assoc,
      Option.some.injEq, exists_eq_left']

/-- A PUT-SEG, and no other request, counts as a segment sent (R85, R90). -/
theorem countSegment_eq (s : State) (b : Binding) : countSegment b = { b with
    segmentsSent := if (requestFrame s b).kind = 0x11 then addSat32 b.segmentsSent 1 else b.segmentsSent } := by
  cases b with
  | mk state step =>
    cases state with
    | await => rfl
    | probe => rfl
    | send => cases step <;> rfl

/-- The address of a request is that of its binding. -/
theorem requestFrame_address (s : State) (b : Binding) : (requestFrame s b).lane = b.lane ∧
    (requestFrame s b).vehicle = ((look s.vehicles b.vehicle).map Vehicle.number).getD 0 ∧
    (requestFrame s b).position = ((look s.validators b.validator).map Validator.position).getD 0 ∧
    (requestFrame s b).seqBit = b.seqBit := by
  refine ⟨rfl, vehicleNumber_some s b.vehicle, ?_, rfl⟩
  simp only [requestFrame, positionOf]
  cases look s.validators b.validator <;> rfl

/-- The bytes of the object that a segment's index stands for (R85). -/
theorem segmentBytes_of_look {s : State} {b : Binding} {o : ContentObject} (h : look s.objects b.object = some o) (n : Nat) :
    segmentBytes s b n = min b.segmentSize (o.declaredSize - n * b.segmentSize) := by
  rw [segmentBytes, h]

/-- What a slot sends in PROBE and in AWAIT. -/
theorem requestFrame_asks (s : State) (b : Binding) :
    (b.state = .probe → (requestFrame s b).kind = 0x15 ∧ (requestFrame s b).body = [] ∧ exchangeOf b = .probe) ∧
    (b.state = .await → (requestFrame s b).kind = 0x14 ∧ (requestFrame s b).body = [] ∧
      (b.step = .opening → exchangeOf b = .fetchOpen) ∧ (∀ n, b.step = .seg n → exchangeOf b = .fetchSegment) ∧
      (b.step = .close → exchangeOf b = .fetchClose)) := by
  refine ⟨fun probe => ?_, fun await => ?_⟩
  · simp only [requestFrame, requestContent, exchangeOf, probe, and_self]
  · refine ⟨?_, ?_, fun step => ?_, fun n step => ?_, fun step => ?_⟩
    · simp only [requestFrame, requestContent, await]
    · simp only [requestFrame, requestContent, await]
    all_goals simp only [exchangeOf, await, step]

section
variable {b : Binding} (send : b.state = .send) (s : State)
include send

/-- What a slot sends in SEND, step by step. -/
theorem requestContent_opening (step : b.step = .opening) : requestContent s b = (0x10, transferHeader s b) := by
  simp only [requestContent, send, step]

theorem requestContent_segment {n : Nat} (step : b.step = .seg n) : requestContent s b = (0x11, segmentBody s b n) := by
  simp only [requestContent, send, step]

theorem requestContent_close (step : b.step = .close) : requestContent s b = (0x12, []) := by
  simp only [requestContent, send, step]

theorem requestContent_abandon (step : b.step = .abandon) : requestContent s b = (0x13, []) := by
  simp only [requestContent, send, step]

end

theorem transferHeader_of_look {s : State} {b : Binding} {o : ContentObject} (h : look s.objects b.object = some o) :
    transferHeader s b = leBytes 1 o.kind.stream.code ++ leBytes 1 o.kind.code ++ leBytes 2 o.generation ++
      leBytes 4 o.declaredSize ++ leBytes 4 o.declaredCrc.toNat ++ leBytes 2 b.segmentSize ++ leBytes 2 b.segmentCount ++
      leBytes 4 (orZero o.effectiveTime) := by
  rw [transferHeader, h]

theorem segmentBody_of_look {s : State} {b : Binding} {o : ContentObject} (h : look s.objects b.object = some o) (n : Nat) :
    segmentBody s b n = leBytes 2 n ++
      objectBytes s.content o (n * b.segmentSize) (min b.segmentSize (o.declaredSize - n * b.segmentSize)) := by
  rw [segmentBody, h, segmentBytes_of_look h]

/-! ## The statement -/

theorem chooseAll_eq (s : State) : chooseAll s = choose 5 (choose 4 (choose 3 (choose 2 (choose 1 (choose 0 s))))) := by
  simp only [chooseAll, allLanes, List.foldl_cons, List.foldl_nil]

/-- Settles O48: the choice by choose_answer, chooseRollCall_sends and chooseSlot_sends, what each sends by sendAnswer_eq,
requestingLane and sendSlot_eq, the requests of slots by requestContent at each step. -/
theorem choicePointOrder : Obligations.ChoicePointOrder := by
  refine ⟨?choice, chooseAll_eq, fun s i => chosen_choose i s,
    fun s i => ⟨fun unset => if_pos unset, oldest_rollCallCandidate i⟩, ?request, ?bytes⟩
  case choice =>
    intro s i l cut left rate timeout hl hcut hleft hrate htimeout
    subst hl hrate htimeout hleft
    rw [← cutFrame_eq] at hcut
    subst hcut
    refine ⟨choose_busy, fun active service idle => ⟨fun a rest ends queue enough hends => ?answer, fun noAnswer =>
      ⟨fun v r ends due candidate enough hends => ?rollCall, fun noRollCall =>
        ⟨fun before after k b f n ends order passed eligible hb hf hn hends => ?slot, fun nobody => ?nothing⟩⟩⟩, slotEligible_iff s i⟩
    case answer =>
      subst hends
      rw [← stateBudget_eq, ← fits_iff] at enough
      rw [choose_answer active service idle queue enough, sendAnswer_eq]
      simp only [modLane, answeringLane, sendMicros_state, stateBudget_eq]
      rfl
    case rollCall =>
      subst hends
      rw [← stateBudget_eq, ← not_fits_iff] at noAnswer
      rw [← rollCallBudget_eq, ← fits_iff] at enough
      rw [choose_noAnswer active service idle noAnswer, chooseRollCall_sends due candidate enough]
      simp only [modLane, requestingLane, frameBytes_rollCallFrame, sendMicros_rollCall, rollCallBudget_eq]
      rfl
    case slot =>
      subst hf hn hends
      rw [← stateBudget_eq, ← not_fits_iff] at noAnswer
      rw [← rollCallBudget_eq, ← not_fits_iff] at noRollCall
      rw [choose_noAnswer active service idle noAnswer, chooseRollCall_passes noRollCall,
        chooseSlot_sends ((servingOrder_eq _).trans order) passed eligible, sendSlot_eq i hb, countSegment_eq s b]
      rfl
    case nothing =>
      rw [← stateBudget_eq, ← not_fits_iff] at noAnswer
      rw [← rollCallBudget_eq, ← not_fits_iff] at noRollCall
      rw [choose_noAnswer active service idle noAnswer, chooseRollCall_passes noRollCall, chooseSlot_none nobody]
  case request =>
    intro s b f hf
    subst hf
    obtain ⟨lane, vehicle, position, seqBit⟩ := requestFrame_address s b
    obtain ⟨probe, await⟩ := requestFrame_asks s b
    have frame {kind : Nat} {body : List Byte} (h : requestContent s b = (kind, body)) :
        (requestFrame s b).kind = kind ∧ (requestFrame s b).body = body := ⟨congrArg Prod.fst h, congrArg Prod.snd h⟩
    refine ⟨lane, vehicle, position, seqBit, probe, await, fun send => ⟨by rw [exchangeOf, send], fun o step ho => ?_,
      fun o n step ho => ?_, fun step => frame (requestContent_close send s step),
      fun step => frame (requestContent_abandon send s step)⟩⟩
    · rw [← transferHeader_of_look ho]
      exact frame (requestContent_opening send s step)
    · rw [← segmentBody_of_look ho]
      exact frame (requestContent_segment send s step)
  case bytes =>
    rintro f covered rfl
    rfl

end Sys2Proof.Machine

/-! PROOFS. The order of the wake list of a beacon (R117). -/

namespace Sys2Proof.Machine

/-! ## The ASLEEP vehicles, by their best-ranked live entry -/

/-- A ranked entry that is live for a vehicle that sleeps on the lane. -/
def AsleepEntry (s : State) (i : LaneIx) (e : RankedEntry) (v : Nat) : Prop :=
  ∃ x r, liveEntry s e = some (x, v, r) ∧ r.lane = i ∧ r.state = .asleep

/-- A ranked entry is live for `v`, and none before it is live for `w`. -/
def RankedAhead (s : State) (ranked : List RankedEntry) (v w : Nat) : Prop :=
  ∃ before_ e after_ x r, ranked = before_ ++ e :: after_ ∧ liveEntry s e = some (x, v, r) ∧
    ∀ e' ∈ before_, ∀ x' r', liveEntry s e' ≠ some (x', w, r')

section
variable {s : State} {i : LaneIx} {e : RankedEntry} {v w : Nat}

theorem AsleepEntry.unique (hv : AsleepEntry s i e v) (hw : AsleepEntry s i e w) : v = w := by
  obtain ⟨_, _, liveV, _⟩ := hv
  obtain ⟨_, _, liveW, _⟩ := hw
  rw [liveV] at liveW
  cases liveW
  rfl

/-- Whether a live entry counts depends on its vehicle alone. -/
theorem AsleepEntry.of_live (h : AsleepEntry s i e v) {e' : RankedEntry} {x : Validator} {r : Vehicle}
    (live : liveEntry s e' = some (x, v, r)) : AsleepEntry s i e' v := by
  obtain ⟨_, q, named, lane, asleep⟩ := h
  obtain rfl : q = r := Option.some.inj ((liveEntry_look named).symm.trans (liveEntry_look live))
  exact ⟨x, q, live, lane, asleep⟩

theorem takeAsleep_asleep (h : AsleepEntry s i e v) (taken : List Nat) :
    takeAsleep s i taken e = if v ∈ taken then taken else taken ++ [v] := by
  obtain ⟨x, r, live, lane, asleep⟩ := h
  by_cases held : v ∈ taken <;> simp [takeAsleep, live, lane, asleep, held]

theorem takeAsleep_other (h : ∀ v, ¬AsleepEntry s i e v) (taken : List Nat) : takeAsleep s i taken e = taken := by
  unfold takeAsleep
  split
  · rfl
  · rename_i x v r live
    exact if_neg fun ⟨lane, asleep, _⟩ => h v ⟨x, r, live, lane, asleep⟩

theorem mem_takeAsleep (taken : List Nat) : v ∈ takeAsleep s i taken e ↔ v ∈ taken ∨ AsleepEntry s i e v := by
  by_cases h : ∃ w, AsleepEntry s i e w
  · obtain ⟨w, hw⟩ := h
    have named : AsleepEntry s i e v ↔ v = w := ⟨fun hv => hv.unique hw, fun same => same ▸ hw⟩
    rw [takeAsleep_asleep hw, named]
    split
    · rename_i held
      exact ⟨Or.inl, fun h => h.elim id fun same => same ▸ held⟩
    · rw [List.mem_append, List.mem_singleton]
  · rw [not_exists] at h
    rw [takeAsleep_other h, or_iff_left (h v)]

theorem mem_foldl_takeAsleep (ranked : List RankedEntry) (taken : List Nat) :
    v ∈ ranked.foldl (takeAsleep s i) taken ↔ v ∈ taken ∨ ∃ e ∈ ranked, AsleepEntry s i e v := by
  induction ranked generalizing taken with
  | nil => simp
  | cons e ranked ih => rw [List.foldl_cons, ih, mem_takeAsleep, List.exists_mem_cons_iff, or_assoc]

theorem RankedAhead.append {ranked : List RankedEntry} (h : RankedAhead s ranked v w) (more : List RankedEntry) :
    RankedAhead s (ranked ++ more) v w := by
  obtain ⟨before, e, after, x, r, rfl, live, none⟩ := h
  exact ⟨before, e, after ++ more, x, r, List.append_assoc .., live, none⟩

/-- A vehicle that has been taken is ahead of one that has not. -/
theorem rankedAhead_of_taken {ranked : List RankedEntry} (hv : v ∈ ranked.foldl (takeAsleep s i) [])
    (hw : w ∉ ranked.foldl (takeAsleep s i) []) (asleep : AsleepEntry s i e w) : RankedAhead s ranked v w := by
  simp only [mem_foldl_takeAsleep, List.not_mem_nil, false_or] at hv hw
  obtain ⟨f, hf, x, r, live, _⟩ := hv
  obtain ⟨before, after, rfl⟩ := List.append_of_mem hf
  exact ⟨before, f, after, x, r, rfl, live, fun e' he' _ _ live' =>
    hw ⟨e', List.mem_append_left _ he', asleep.of_live live'⟩⟩

end

/-- By induction on the ranked list from its end: what its last entry adds comes behind all that was taken before. -/
theorem foldl_takeAsleep_ahead (s : State) (i : LaneIx) (ranked : List RankedEntry) :
    (ranked.foldl (takeAsleep s i) []).Pairwise (RankedAhead s ranked) := by
  induction ranked using List.reverseRecOn with
  | nil => exact List.Pairwise.nil
  | append_singleton ranked e ih =>
    have kept := ih.imp fun {_ _} (h : RankedAhead s ranked _ _) => h.append [e]
    rw [List.foldl_append, List.foldl_cons, List.foldl_nil]
    by_cases h : ∃ w, AsleepEntry s i e w
    · obtain ⟨w, hw⟩ := h
      rw [takeAsleep_asleep hw]
      split
      · exact kept
      · rename_i fresh
        refine List.pairwise_append.2 ⟨kept, List.pairwise_singleton .., fun v hv w' hw' => ?_⟩
        rw [List.mem_singleton.1 hw']
        exact (rankedAhead_of_taken hv fresh hw).append [e]
    · rw [takeAsleep_other (not_exists.1 h)]
      exact kept

/-! ## The EXPECTED vehicles, by departure time and number -/

/-- The order of EXPECTED vehicles as a relation. -/
def ExpectedLe (a b : Vehicle) : Prop :=
  (∃ d, a.departure = some d ∧ (b.departure = none ∨ ∃ e, b.departure = some e ∧ (d < e ∨ (d = e ∧ a.number ≤ b.number)))) ∨
    (a.departure = none ∧ b.departure = none ∧ a.number ≤ b.number)

theorem expectedBefore_iff (a b : Vehicle) : expectedBefore a b = true ↔ ExpectedLe a b := by
  unfold expectedBefore ExpectedLe
  cases a.departure <;> cases b.departure <;> simp

theorem ExpectedLe.total (a b : Vehicle) : ExpectedLe a b ∨ ExpectedLe b a := by
  unfold ExpectedLe
  cases a.departure <;> cases b.departure <;> simp <;> omega

theorem ExpectedLe.trans {a b c : Vehicle} (h : ExpectedLe a b) (k : ExpectedLe b c) : ExpectedLe a c := by
  unfold ExpectedLe at *
  cases ha : a.departure <;> cases hb : b.departure <;> cases hc : c.departure <;> simp [ha, hb, hc] at h k ⊢ <;> omega

theorem insertExpected_eq (p : Nat × Vehicle) (l : List (Nat × Vehicle)) :
    insertExpected p l = l.orderedInsert (fun p q => expectedBefore p.2 q.2 = true) p := by
  induction l with
  | nil => rfl
  | cons q l ih => rw [insertExpected, List.orderedInsert_cons, ih]

theorem insertAllExpected_sorted (l : List (Nat × Vehicle)) :
    (l.foldr insertExpected []).Pairwise (fun p q => ExpectedLe p.2 q.2) := by
  have total : Std.Total (fun p q : Nat × Vehicle => expectedBefore p.2 q.2 = true) :=
    ⟨fun p q => by simpa only [expectedBefore_iff] using ExpectedLe.total p.2 q.2⟩
  have trans : IsTrans (Nat × Vehicle) (fun p q => expectedBefore p.2 q.2 = true) :=
    ⟨fun p q r => by simpa only [expectedBefore_iff] using ExpectedLe.trans⟩
  rw [funext₂ insertExpected_eq]
  exact (List.pairwise_insertionSort _ l).imp fun h => (expectedBefore_iff _ _).1 h

/-- The sorted records of which expectedOn gives the indices. -/
theorem mem_insertAllExpected {s : State} (roster : RosterOk s) (i : LaneIx) (v : Nat) (r : Vehicle) :
    (v, r) ∈ (s.vehicles.filter (fun p => p.2.lane == i && p.2.state == .expected)).foldr insertExpected [] ↔
      look s.vehicles v = some r ∧ r.lane = i ∧ r.state = .expected := by
  rw [(insertAllExpected_perm _).mem_iff, List.mem_filter, mem_iff_look _ _ _ _ 0 roster.1]
  simp

theorem mem_expectedOn {s : State} (roster : RosterOk s) (i : LaneIx) (v : Nat) :
    v ∈ expectedOn s i ↔ ∃ r, look s.vehicles v = some r ∧ r.lane = i ∧ r.state = .expected := by
  simp only [expectedOn, List.mem_map, Prod.exists, mem_insertAllExpected roster, exists_and_right, exists_eq_right]

theorem expectedOn_sorted {s : State} (roster : RosterOk s) (i : LaneIx) : (expectedOn s i).Pairwise
    (fun v w => ∀ a b, look s.vehicles v = some a → look s.vehicles w = some b → ExpectedLe a b) := by
  rw [expectedOn, List.pairwise_map]
  refine (insertAllExpected_sorted _).imp_of_mem fun {p q} hp hq le a b ha hb => ?_
  obtain ⟨lookP, _⟩ := (mem_insertAllExpected roster i p.1 p.2).1 hp
  obtain ⟨lookQ, _⟩ := (mem_insertAllExpected roster i q.1 q.2).1 hq
  cases lookP.symm.trans ha
  cases lookQ.symm.trans hb
  exact le

/-! ## The wake list -/

/-- Vehicles in different states are different vehicles. -/
theorem NodupIn.append {s : State} {st st' : VehicleState} {l l' : List Nat} (h : NodupIn s st l) (h' : NodupIn s st' l')
    (apart : st ≠ st') : (l ++ l').Nodup := by
  obtain ⟨once, state⟩ := h
  obtain ⟨once', state'⟩ := h'
  refine List.nodup_append.2 ⟨once, once', fun v hv w hw same => ?_⟩
  subst same
  obtain ⟨r, hr, inSt⟩ := state v hv
  obtain ⟨q, hq, inSt'⟩ := state' v hw
  cases hr.symm.trans hq
  exact apart (inSt.symm.trans inSt')

/-- Settles O46: the ASLEEP vehicles by foldl_takeAsleep_ahead, the EXPECTED ones by expectedOn_sorted. -/
theorem wakeListRule : Obligations.WakeListRule := by
  intro s i roster
  refine ⟨s.scanner.ranked.foldl (takeAsleep s i) [], expectedOn s i, rfl,
    (nodupIn_asleep s i _).append (nodupIn_expectedOn roster i) (by decide), fun v => ?_, mem_expectedOn roster i,
    foldl_takeAsleep_ahead s i _, expectedOn_sorted roster i⟩
  rw [mem_foldl_takeAsleep, or_iff_right List.not_mem_nil]
  rfl

end Sys2Proof.Machine

/-! PROOFS. The parts of a round (R112, R114, R119, R128, R130, R131, R134, R136). -/

namespace Sys2Proof.Machine

section
variable {s : State} {i : LaneIx}

/-! ## The announce window (R119, R136) -/

theorem windowLength_eq (l : Lane) : windowLength l =
    min ((if l.arrival = true ∨ l.doublingDue = true then 2 else 1) * l.inWindow) (l.inLength / 2) := by
  simp only [windowLength, Bool.or_eq_true, ite_mul, one_mul]

theorem exec_beaconEnd (active : (s.lane i).state = .active) (beacon : (s.lane i).phase = .beacon) :
    exec (.beaconEnd i) s = .next (modLane i (fun l => { l with
      phase := .window, deadline := max s.now (s.lane i).deadline + millis (windowLength l),
      windowByArrival := l.arrival, doublingDue := false }) (advanceTo (s.lane i).deadline s)) := if_pos ⟨active, beacon⟩

/-- A lane record whose window closes: what has come of a frame in progress came in the window. -/
def serviceLane (now : Time) (l : Lane) : Lane :=
  { l with
    phase := .service, windowByArrival := false,
    reception := l.reception.map (fun r => { r with windowBytes := heardBytes now l }) }

theorem exec_windowClose (active : (s.lane i).state = .active) (window : (s.lane i).phase = .window) :
    exec (.windowClose i) s = .next (chooseAll (closeWindow i (advanceTo (s.lane i).deadline s))) := if_pos ⟨active, window⟩

theorem closeWindow_keepsArrival (h : (s.lane i).params.presence ≠ .edge ∨ (s.lane i).windowByArrival = false) :
    closeWindow i s = modLane i (serviceLane s.now) s := by
  have h : ¬((s.lane i).params.presence = .edge ∧ (s.lane i).windowByArrival = true) := by
    rwa [not_and_or, Bool.not_eq_true]
  exact if_neg h

/-- In EDGE mode the arrival that doubled the window has been served by it. -/
theorem closeWindow_clearsArrival (edge : (s.lane i).params.presence = .edge) (doubled : (s.lane i).windowByArrival = true) :
    closeWindow i s = retestIdle i (modLane i (fun l => { serviceLane s.now l with arrival := false }) s) := by
  have cleared : closeWindow i s = clearArrival i (modLane i (serviceLane s.now) s) := if_pos ⟨edge, doubled⟩
  rw [cleared, clearArrival, modLane_modLane]
  rfl

/-! ## The end of a round (R114, R130, R134) -/

theorem exec_roundEnd (active : (s.lane i).state = .active) (service : (s.lane i).phase = .service)
    (idle : (s.lane i).transaction = none) (n : Nat) :
    exec (.roundEnd i n) s = .next (endRound i n (advanceTo (roundEndTime (s.lane i)) s)) := if_pos ⟨active, service, idle⟩

theorem endRound_quiet (last : (s.lane i).burst = 0) (expired : (s.lane i).quietTimer = .expired) (idle : laneIdle s i = true)
    (n : Nat) : endRound i n s = enterQuiet i n s := by
  rw [endRound, if_neg (by omega), if_pos ⟨expired, idle⟩]

/-- A lane record at the end of a round that another follows: a burst has counted down, and a frame still arriving is cut short. -/
def nextRoundLane (n : Nat) (l : Lane) : Lane :=
  { l with burst := l.burst - 1, reception := none, spent := if l.reception = none then l.spent else spentAfter l n }

theorem endRound_next (h : ¬((s.lane i).burst = 0 ∧ (s.lane i).quietTimer = .expired ∧ laneIdle s i = true)) (n : Nat) :
    endRound i n s = beginRound i (modLane i (nextRoundLane n) s) := by
  have cut : nextRound i n (modLane i (fun l => { l with burst := l.burst - 1 }) s) = beginRound i (modLane i (nextRoundLane n) s) := by
    simp only [nextRound, modLane_modLane, cutFrame_eq]
    rfl
  rw [← cut]
  by_cases counting : 0 < (s.lane i).burst
  · exact if_pos counting
  · have last : (s.lane i).burst = 0 := by omega
    have same : (s.lane i).burst - 1 = (s.lane i).burst := by omega
    rw [endRound, if_neg counting, if_neg fun quiet => h ⟨last, quiet⟩, modLane_id i _ s (by rw [same])]

end

/-! ## The bytes of a frame in progress (R112, R119, R128, R131) -/

theorem bytes_silent {l : Lane} (silent : l.reception = none) (now : Time) (n : Nat) : heardBytes now l = 0 ∧
    spentAfter l n = if l.phase = .service then addSat32 l.spent n else l.spent := by
  simp only [heardBytes, spentAfter, silent, and_self]

theorem bytes_receiving {l : Lane} {r : Reception} (receiving : l.reception = some r) (now : Time) (n : Nat) :
    heardBytes now l = min 2307 (1 + (now - r.start) * l.rate / 10000000) ∧
    spentAfter l n = addSat32 l.spent (if l.phase = .service then n - r.windowBytes else r.owed) := by
  simp only [heardBytes, spentAfter, receiving, bytesIn, Config.partFrameBytes, and_self]

/-- Settles O47: each event by what it does in its phase, the window by closeWindow, the round's end by whether a round follows. -/
theorem roundParts : Obligations.RoundParts := by
  refine ⟨?events, fun l now n => ⟨fun silent => bytes_silent silent now n, fun r receiving => bytes_receiving receiving now n⟩⟩
  rintro s i l rfl active
  refine ⟨?beacon, ?window, ?round⟩
  case beacon =>
    rintro now rfl beacon
    rw [exec_beaconEnd active beacon, ← windowLength_eq]
    rfl
  case window =>
    rintro now m rfl window rfl
    rw [exec_windowClose active window]
    refine ⟨fun kept => ?_, fun edge doubled => ?_⟩
    · rw [closeWindow_keepsArrival (s := advanceTo (s.lane i).deadline s) kept]
      rfl
    · rw [closeWindow_clearsArrival (s := advanceTo (s.lane i).deadline s) edge doubled]
      rfl
  case round =>
    rintro now n rfl service idle
    rw [exec_roundEnd active service idle]
    refine ⟨fun last expired free => ?_, fun h => ?_⟩
    · rw [endRound_quiet (s := advanceTo (roundEndTime (s.lane i)) s) last expired free]
      rfl
    · rw [endRound_next (s := advanceTo (roundEndTime (s.lane i)) s) h]
      rfl

end Sys2Proof.Machine

/-! PROOFS. Idleness, the quiet timers and the presence inputs (R113, R129, R131 to R134, R136, R137), and WAKE_LANE (R135). -/

namespace Sys2Proof.Machine

/-! ## The test of idleness, in every state of the lane (R129, R133) -/

theorem laneIdle_iff (s : State) (i : LaneIx) :
    laneIdle s i = true ↔ (s.lane i).state = .active ∧ (s.lane i).answers = [] ∧ idleBase s i = true := by
  simp [laneIdle, List.isEmpty_iff, and_assoc]

section
variable {s : State} {i : LaneIx}

section
variable (unmarked : (s.lane i).frameWake = false)
include unmarked

theorem retestIdle_starts (idle : laneIdle s i = true) (stopped : (s.lane i).quietTimer = .stopped) :
    retestIdle i s = modLane i (fun l => { l with quietTimer := startQuietTimer s.now l }) s := by
  simp [retestIdle, unmarked, idle, stopped]

theorem retestIdle_goesOn (idle : laneIdle s i = true) (timed : (s.lane i).quietTimer ≠ .stopped) : retestIdle i s = s := by
  simp [retestIdle, unmarked, idle, timed]

theorem retestIdle_stops (busy : laneIdle s i = false) :
    retestIdle i s = modLane i (fun l => { l with quietTimer := .stopped }) s := by
  simp [retestIdle, unmarked, busy]

end

section
variable (marked : (s.lane i).frameWake = true)
include marked

theorem retestIdle_keepsMark (free : ((s.lane i).state = .active ∨ (s.lane i).state = .starting) ∧ idleBase s i = true) :
    retestIdle i s = s := by
  obtain ⟨state, free⟩ := free
  simp [retestIdle, marked, state, free]

theorem retestIdle_clearsMark (busy : ¬(((s.lane i).state = .active ∨ (s.lane i).state = .starting) ∧ idleBase s i = true)) :
    retestIdle i s = modLane i (fun l => { l with quietTimer := .stopped, frameWake := false }) s := by
  have busy : ¬(((s.lane i).state == .active || (s.lane i).state == .starting) && idleBase s i) = true := by simpa using busy
  rw [retestIdle, if_pos marked, if_neg busy]

end

/-- With the arrival flag set a lane is not idle, marked or not: its timer stops and its mark goes. -/
theorem retestIdle_arrived (arrived : (s.lane i).arrival = true) :
    retestIdle i s = modLane i (fun l => { l with quietTimer := .stopped, frameWake := false }) s := by
  have busy : idleBase s i = false := by simp [idleBase, arrived]
  cases mark : (s.lane i).frameWake with
  | true => exact retestIdle_clearsMark mark (by simp [busy])
  | false =>
    rw [retestIdle_stops mark (by simp [laneIdle, busy])]
    exact modLane_congr i _ _ s (by rw [← mark])

end

/-! ## Leaving QUIET (R113, R131, R132, R134, R136) -/

/-- A lane record that leaves QUIET with a burst. -/
def burstLane (now : Time) (l : Lane) : Lane :=
  { l with
    state := .starting, phase := .none, reception := none, spent := spentAfter l 0, powerSave := false, quietMaxEnd := none,
    leftQuiet := some now, quietTimer := .stopped, frameWake := false, burst := l.params.burstRounds,
    arrival := l.arrival && decide (l.params.presence ≠ .edge),
    deadline := now + sendMicros l.rate l.params.preamble }

theorem leaveQuiet_burst (i : LaneIx) (s : State) : leaveQuiet i true s = modLane i (burstLane s.now) s := by
  rw [leaveQuiet_eq]
  refine modLane_congr i _ _ s ?_
  unfold burstLane
  cases (s.lane i).params.presence <;> cases (s.lane i).arrival <;> rfl

theorem servingLane_quiet {l : Lane} (quiet : l.state = .quiet) (now : Time) : servingLane now l =
    { l with
      state := .starting, phase := .none, reception := none, spent := spentAfter l 0, powerSave := false, quietMaxEnd := none,
      leftQuiet := some now, quietTimer := .stopped, frameWake := false,
      deadline := now + sendMicros l.rate l.params.preamble } := if_pos quiet

theorem servingLane_awake {l : Lane} (awake : l.state ≠ .quiet) (now : Time) :
    servingLane now l = { l with quietTimer := .stopped, frameWake := false } := if_neg awake

/-! ## The quiet timers (R129, R132) -/

section
variable {s : State} {i : LaneIx}

theorem exec_quietDelayExpiry {at_ : Time} (running : (s.lane i).quietTimer = .running at_) :
    exec (.quietDelayExpiry i) s = .next (modLane i (fun l => { l with quietTimer := .expired }) (advanceTo at_ s)) := by
  simp only [exec, execQuietDelayExpiry, running]

theorem exec_quietMaximumExpiry {at_ : Time} (quiet : (s.lane i).state = .quiet) (maximum : (s.lane i).quietMaxEnd = some at_) :
    exec (.quietMaximumExpiry i) s = .next (modLane i (burstLane (max s.now at_)) (advanceTo at_ s)) := by
  simp only [exec, execQuietMaximumExpiry, maximum, if_pos quiet, leaveQuiet_burst, advanceTo_now]

/-! ## The presence inputs (R136, R137) -/

/-- An edge to the level that the line has is none. -/
theorem exec_presenceAssert_again (high : (s.lane i).lineAsserted = true) : exec (.presenceAssert i) s = .next s := if_pos high

theorem exec_presenceDeassert_again (low : (s.lane i).lineAsserted = false) : exec (.presenceDeassert i) s = .next s :=
  if_neg (by simp [low])

theorem exec_presenceAssert_unminded (low : (s.lane i).lineAsserted = false)
    (h : (s.lane i).state = .off ∨ (s.lane i).params.presence = .none ∨ (s.lane i).arrival = true) :
    exec (.presenceAssert i) s = .next (setLine i true s) := by
  simp only [exec, execPresenceAssert, low, Bool.false_eq_true, if_false, if_pos h]

theorem exec_presenceAssert_minded (low : (s.lane i).lineAsserted = false) (on : (s.lane i).state ≠ .off)
    (minds : (s.lane i).params.presence ≠ .none) (fresh : (s.lane i).arrival = false) :
    exec (.presenceAssert i) s = .next (setArrival i (setLine i true s)) := by
  have h : ¬((s.lane i).state = .off ∨ (s.lane i).params.presence = .none ∨ (s.lane i).arrival = true) := by simp [on, minds, fresh]
  simp only [exec, execPresenceAssert, low, Bool.false_eq_true, if_false, if_neg h]

theorem exec_presenceDeassert_unminded (high : (s.lane i).lineAsserted = true)
    (h : (s.lane i).state = .off ∨ (s.lane i).params.presence ≠ .edgeLevel) :
    exec (.presenceDeassert i) s = .next (setLine i false s) := by
  have h : ¬((s.lane i).state ≠ .off ∧ (s.lane i).params.presence = .edgeLevel) := by tauto
  simp only [exec, execPresenceDeassert, high, if_true, if_neg h]

theorem exec_presenceDeassert_minded (high : (s.lane i).lineAsserted = true) (on : (s.lane i).state ≠ .off)
    (level : (s.lane i).params.presence = .edgeLevel) :
    exec (.presenceDeassert i) s = .next (clearArrival i (setLine i false s)) := by
  simp only [exec, execPresenceDeassert, high, if_true, if_pos (And.intro on level)]

/-- A QUIET lane that an asserting edge wakes keeps the arrival flag in EDGE_LEVEL mode alone. -/
theorem setArrival_quiet (quiet : (s.lane i).state = .quiet) (minds : (s.lane i).params.presence ≠ .none) :
    setArrival i (setLine i true s) = modLane i (fun l => { burstLane s.now l with
      lineAsserted := true, arrival := decide (l.params.presence = .edgeLevel) }) s := by
  have state : ((setLine i true s).lane i).state = .quiet := by rw [setLine, modLane_lane_same, quiet]
  have woken : setArrival i (setLine i true s) =
      leaveQuiet i true (modLane i (fun l => { l with arrival := true }) (setLine i true s)) := if_pos state
  rw [woken, leaveQuiet_burst, setLine, modLane_modLane, modLane_modLane]
  refine modLane_congr i _ _ s ?_
  have kept : decide ((s.lane i).params.presence ≠ .edge) = decide ((s.lane i).params.presence = .edgeLevel) := by
    cases h : (s.lane i).params.presence with
    | none => exact absurd h minds
    | edge => rfl
    | edgeLevel => rfl
  simp only [burstLane, kept, Bool.true_and]
  rfl

theorem setArrival_awake (awake : (s.lane i).state ≠ .quiet) : setArrival i (setLine i true s) = modLane i (fun l => { l with
    lineAsserted := true, arrival := true, quietTimer := .stopped, frameWake := false }) s := by
  have state : ((setLine i true s).lane i).state ≠ .quiet := by rw [setLine, modLane_lane_same]; exact awake
  have kept : setArrival i (setLine i true s) =
      retestIdle i (modLane i (fun l => { l with arrival := true }) (setLine i true s)) := if_neg state
  rw [kept, retestIdle_arrived (by rw [modLane_lane_same]), setLine, modLane_modLane, modLane_modLane]

theorem clearArrival_deasserted : clearArrival i (setLine i false s) = retestIdle i (modLane i (fun l => { l with
    lineAsserted := false, arrival := false, windowByArrival := false }) s) := by
  simp only [clearArrival, setLine, modLane_modLane]

end

/-- Settles O52: the timers and presence edges by what each does to its lane, the tests of idleness by the retestIdle lemmas, with
idleBase_iff for what makes a lane free. -/
theorem quietAndPresence : Obligations.QuietAndPresence := by
  refine ⟨?events, ?tests⟩
  case events =>
    intro s i l become burst hl hbecome hburst
    subst hl
    have burst_eq (at_ : Time) : burst at_ = burstLane (max s.now at_) (s.lane i) := hburst at_
    refine ⟨fun at_ running => ?_, fun at_ quiet maximum => ?_, exec_presenceAssert_again, fun low => ⟨exec_presenceAssert_unminded low,
      fun on minds fresh => ⟨fun quiet => ?_, fun awake => ?_⟩⟩, exec_presenceDeassert_again,
      fun high => ⟨exec_presenceDeassert_unminded high, fun on level => ?_⟩⟩
    · rw [exec_quietDelayExpiry running, hbecome]
      rfl
    · rw [exec_quietMaximumExpiry quiet maximum, hbecome, burst_eq]
      rfl
    · rw [exec_presenceAssert_minded low on minds fresh, setArrival_quiet quiet minds, burst_eq, max_self]
      rfl
    · rw [exec_presenceAssert_minded low on minds fresh, setArrival_awake awake]
      rfl
    · rw [exec_presenceDeassert_minded high on level, clearArrival_deasserted]
      rfl
  case tests =>
    intro s i l free hl hfree
    subst hl
    rw [← idleBase_iff] at hfree
    rw [hfree]
    exact ⟨laneIdle_iff s i, fun unmarked idle => ⟨retestIdle_starts unmarked idle, retestIdle_goesOn unmarked idle⟩,
      retestIdle_stops, fun marked => ⟨retestIdle_keepsMark marked, retestIdle_clearsMark marked⟩⟩

/-! ## WAKE_LANE (R135) -/

section
variable {s : State} {tag : Byte} {i : LaneIx}

theorem wakeLane_badLane {lane : Nat} (hq : Held s tag (.wakeLane lane)) (beyond : 6 ≤ lane) :
    exec .wakeLane s = .next (replied 0x94 tag .badField [] s) := by
  simp only [exec, execWakeLane, show s.host.processor = _ from hq, laneOf_of_le beyond]
  rfl

theorem wakeLane_off (hq : Held s tag (.wakeLane i.val)) (off : (s.lane i).state = .off) :
    exec .wakeLane s = .next (replied 0x94 tag .laneOff [] s) := by
  simp only [exec, execWakeLane, show s.host.processor = _ from hq, laneOf_val, off]
  rfl

theorem wakeLane_resetting (hq : Held s tag (.wakeLane i.val)) (resetting : (s.lane i).state = .resetting) :
    exec .wakeLane s = .next (replied 0x94 tag .ok (leBytes 1 (s.lane i).state.code) s) := by
  simp only [exec, execWakeLane, show s.host.processor = _ from hq, laneOf_val, resetting]
  rfl

/-- A QUIET, STARTING or ACTIVE lane is woken as by a slot that is bound to it. -/
theorem wakeLane_wakes (hq : Held s tag (.wakeLane i.val)) (on : (s.lane i).state ≠ .off) (other : (s.lane i).state ≠ .resetting) :
    exec .wakeLane s =
      .next (replied 0x94 tag .ok (leBytes 1 (s.lane i).state.code) (modLane i (servingLane s.now) s)) := by
  have quiet (h : (s.lane i).state = .quiet) : leaveQuiet i false s = modLane i (servingLane s.now) s := by
    rw [leaveQuiet_eq]
    exact modLane_congr i _ _ s (servingLane_quiet h s.now).symm
  have awake (h : (s.lane i).state ≠ .quiet) : restartQuiet i s = modLane i (servingLane s.now) s :=
    modLane_congr i _ _ s (servingLane_awake h s.now).symm
  simp only [exec, execWakeLane, show s.host.processor = _ from hq, laneOf_val]
  cases h : (s.lane i).state with
  | off => exact absurd h on
  | resetting => exact absurd h other
  | quiet =>
    rw [← quiet h]
    rfl
  | starting =>
    rw [← awake (by rw [h]; decide)]
    rfl
  | active =>
    rw [← awake (by rw [h]; decide)]
    rfl

end

/-- Settles O55: by the state of the lane; servingLane tells what is woken. -/
theorem wakeLaneOutcome : Obligations.WakeLaneOutcome := by
  intro s tag lane hq
  refine ⟨wakeLane_badLane hq, ?_⟩
  rintro i l rfl rfl
  refine ⟨wakeLane_off hq, fun quiet => ?_, fun running => ?_, wakeLane_resetting hq⟩
  · rw [wakeLane_wakes hq (by rw [quiet]; decide) (by rw [quiet]; decide), modLane, servingLane_quiet quiet]
    rfl
  · have awake : (s.lane i).state ≠ .quiet ∧ (s.lane i).state ≠ .off ∧ (s.lane i).state ≠ .resetting := by
      obtain h | h := running <;> rw [h] <;> decide
    obtain ⟨notQuiet, on, other⟩ := awake
    rw [wakeLane_wakes hq on other, modLane, servingLane_awake notQuiet]

end Sys2Proof.Machine

/-! PROOFS. The receiver of the host link: frames, breaks and the RESET pin (R143 to R147, R153, R165). -/

namespace Sys2Proof.Machine

/-! ## What bytes are a frame, an end of one, or a part of one (R144, R165) -/

theorem wholeHostFrame_iff (bs : List Byte) :
    wholeHostFrame bs = true ↔ 2 ≤ field bs 0 2 ∧ field bs 0 2 ≤ 1102 ∧ bs.length = field bs 0 2 + 4 := by
  simp only [wholeHostFrame, Bool.and_eq_true, decide_eq_true_eq, and_assoc]

theorem badHostLength_iff (bs : List Byte) :
    badHostLength bs = true ↔ bs.length = 2 ∧ (field bs 0 2 < 2 ∨ 1102 < field bs 0 2) := by
  simp only [badHostLength, Bool.and_eq_true, Bool.not_eq_true', Bool.and_eq_false_iff, decide_eq_true_eq, decide_eq_false_iff_not,
    not_le]

theorem partHostFrame_iff (bs : List Byte) :
    partHostFrame bs = true ↔ bs.length < 2 ∨ (2 ≤ field bs 0 2 ∧ field bs 0 2 ≤ 1102 ∧ bs.length < field bs 0 2 + 4) := by
  simp only [partHostFrame, Bool.or_eq_true, Bool.and_eq_true, decide_eq_true_eq, and_assoc]

/-- Bytes that end a frame by their length field are no longer a part of one. -/
theorem badHostLength_of_part {bs : List Byte} (part : partHostFrame bs = true) : badHostLength bs = false := by
  rw [partHostFrame_iff] at part
  rw [Bool.eq_false_iff, Ne, badHostLength_iff]
  omega

theorem hostCrcOk_iff (bs : List Byte) :
    hostCrcOk bs = true ↔ field bs (field bs 0 2 + 2) 2 = (crc16 (bs.take (field bs 0 2 + 2))).toNat := decide_eq_true_iff

/-! ## The beginning of a frame (R144) -/

theorem freeBuffer_first {h : HostLink} (free : h.buffers.get 0 = .free) : freeBuffer h = some 0 := by
  simp [freeBuffer, free]

theorem freeBuffer_second {h : HostLink} (taken : h.buffers.get 0 ≠ .free) (free : h.buffers.get 1 = .free) :
    freeBuffer h = some 1 := by
  simp [freeBuffer, taken, free]

theorem freeBuffer_none {h : HostLink} (taken : h.buffers.get 0 ≠ .free) (taken' : h.buffers.get 1 ≠ .free) :
    freeBuffer h = none := by
  simp [freeBuffer, taken, taken']

section
variable {s : State}

theorem exec_hostFrameStart (opened : s.host.rxOpen = true) (hunting : s.host.receiver = .hunting) :
    exec .hostFrameStart s = .next (modHost beginFrame s) := if_pos ⟨opened, hunting⟩

theorem beginFrame_takes {h : HostLink} {b : Fin 2} (free : freeBuffer h = some b) :
    beginFrame h = { h with receiver := .receiving b, buffers := h.buffers.set b .filling } := by
  simp only [beginFrame, free]

theorem beginFrame_discards {h : HostLink} (full : freeBuffer h = none) : beginFrame h = { h with receiver := .discarding } := by
  simp only [beginFrame, full]

/-! ## A closed receiver, and one in BREAK (R143, R147, R153) -/

theorem inFrame_closed {h : HostLink} (closed : h.rxOpen = false) : inFrame h = false := by
  simp only [inFrame, closed, Bool.false_and]

theorem inFrame_inBreak {h : HostLink} (broken : h.receiver = .inBreak) : inFrame h = false := by
  simp only [inFrame, broken, Bool.and_false]

theorem inFrame_receiving {h : HostLink} (opened : h.rxOpen = true) {b : Fin 2} (receiving : h.receiver = .receiving b) :
    inFrame h = true := by
  simp only [inFrame, opened, receiving, Bool.and_self]

theorem inFrame_discarding {h : HostLink} (opened : h.rxOpen = true) (discarding : h.receiver = .discarding) :
    inFrame h = true := by
  simp only [inFrame, opened, discarding, Bool.and_self]

section
variable (outside : inFrame s.host = false) (bs : List Byte)
include outside

/-- Outside a frame nothing ends one. -/
theorem hostFrameEnd_outside : exec (.hostFrameEnd bs) s = .next s := if_neg (by simp [outside])

theorem hostFrameAbort_outside : exec (.hostFrameAbort bs) s = .next s := if_neg (by simp [outside])

theorem hostFrameTimeout_outside : exec (.hostFrameTimeout bs) s = .next s := if_neg (by simp [outside])

end

theorem hostFrameStart_notHunting (h : s.host.rxOpen = false ∨ s.host.receiver ≠ .hunting) : exec .hostFrameStart s = .next s :=
  if_neg fun ⟨opened, hunting⟩ => h.elim (by simp [opened]) (· hunting)

theorem hostLinkBreak_closed (closed : s.host.rxOpen = false) : exec .hostLinkBreak s = .next s := if_neg (by simp [closed])

theorem transmitStart_pinAsserted (asserted : s.resetPin = true) : exec .transmitStart s = .next s :=
  if_neg fun ⟨_, released, _⟩ => by simp [asserted] at released

/-- Settles O3: a closed receiver begins no frame and is in none. -/
theorem resetPinHoldsTheLink : Obligations.ResetPinHoldsTheLink := by
  refine ⟨fun _ => rfl, fun _ => transmitStart_pinAsserted, fun s closed => ?_⟩
  have outside := inFrame_closed closed
  exact ⟨hostFrameStart_notHunting (.inl closed), hostLinkBreak_closed closed, fun bs =>
    ⟨hostFrameEnd_outside outside bs, hostFrameAbort_outside outside bs, hostFrameTimeout_outside outside bs⟩⟩

/-- Settles O4: by which buffer is the lowest FREE one. -/
theorem hostFrameStartTakesABuffer : Obligations.HostFrameStartTakesABuffer := by
  intro s opened hunting
  rw [exec_hostFrameStart opened hunting, modHost]
  refine ⟨fun free => ?_, fun taken free => ?_, fun taken taken' => ?_⟩
  · rw [beginFrame_takes (freeBuffer_first free)]
    rfl
  · rw [beginFrame_takes (freeBuffer_second taken free)]
    rfl
  · rw [beginFrame_discards (freeBuffer_none taken taken')]

/-- Settles O6: in BREAK the receiver is not HUNTING and in no frame. -/
theorem hostLinkBreakClearsTheReceiver : Obligations.HostLinkBreakClearsTheReceiver := by
  refine ⟨fun s opened => if_pos opened, fun s broken => ⟨if_pos broken, ?_, hostFrameEnd_outside (inFrame_inBreak broken)⟩⟩
  exact hostFrameStart_notHunting (.inr (by simp [broken]))

/-! ## The end of a frame (R144 to R146) -/

section
variable {bs : List Byte}

/-- A whole frame with a correct CRC-16 that has a buffer waits there as a request. -/
theorem hostFrameEnd_stored (opened : s.host.rxOpen = true) {b : Fin 2} (receiving : s.host.receiver = .receiving b)
    (whole : wholeHostFrame bs = true) (correct : hostCrcOk bs = true) :
    exec (.hostFrameEnd bs) s = .next (modHost (storeFrame b (frameRequest bs)) s) := by
  simp only [exec, execHostFrameEnd, inFrame_receiving opened receiving, whole, correct, and_self, if_true, goodHostFrame, receiving]

/-- One that has none is an overrun. -/
theorem hostFrameEnd_overrun (opened : s.host.rxOpen = true) (discarding : s.host.receiver = .discarding)
    (whole : wholeHostFrame bs = true) (correct : hostCrcOk bs = true) :
    exec (.hostFrameEnd bs) s = .next (submit (.linkOverrun (kindByte bs) (tagByte bs)) (modHost dropFrame s)) := by
  simp only [exec, execHostFrameEnd, inFrame_discarding opened discarding, whole, correct, and_self, if_true, goodHostFrame,
    discarding]

variable (inside : inFrame s.host = true)
include inside

theorem hostFrameEnd_badCrc (whole : wholeHostFrame bs = true) (wrong : hostCrcOk bs = false) :
    exec (.hostFrameEnd bs) s = .next (badFrame .crc (field bs 0 2) s) := by
  simp only [exec, execHostFrameEnd, inside, whole, wrong, and_self, if_true, Bool.false_eq_true, if_false]

theorem hostFrameAbort_badLength (bad : badHostLength bs = true) :
    exec (.hostFrameAbort bs) s = .next (badFrame .length (field bs 0 2) s) := by
  simp only [exec, execHostFrameAbort, inside, bad, if_true]

theorem hostFrameAbort_part (part : partHostFrame bs = true) :
    exec (.hostFrameAbort bs) s = .next (badFrame .framing (lengthSoFar bs) s) := by
  simp only [exec, execHostFrameAbort, inside, badHostLength_of_part part, part, if_true, Bool.false_eq_true, if_false]

theorem hostFrameTimeout_part (part : partHostFrame bs = true) :
    exec (.hostFrameTimeout bs) s = .next (badFrame .timeout (lengthSoFar bs) s) := if_pos ⟨inside, part⟩

end

theorem dropFrame_receiving {h : HostLink} {b : Fin 2} (receiving : h.receiver = .receiving b) :
    dropFrame h = { h with receiver := .hunting, buffers := h.buffers.set b .free } := by
  simp only [dropFrame, receiving]

theorem dropFrame_discarding {h : HostLink} (discarding : h.receiver = .discarding) :
    dropFrame h = { h with receiver := .hunting } := by
  simp only [dropFrame, discarding]

end

/-- Settles O5: each end of a frame by its own lemma; dropFrame tells what a bad frame leaves. -/
theorem hostFrameEnds : Obligations.HostFrameEnds := by
  refine ⟨?bytes, ?ends⟩
  case bytes =>
    rintro bs len rfl
    exact ⟨wholeHostFrame_iff bs, badHostLength_iff bs, partHostFrame_iff bs⟩
  case ends =>
    intro s ended opened dropped
    obtain ⟨inside, left⟩ : inFrame s.host = true ∧ ended = dropFrame s.host := by
      rcases dropped with ⟨b, receiving, rfl⟩ | ⟨discarding, rfl⟩
      · exact ⟨inFrame_receiving opened receiving, (dropFrame_receiving receiving).symm⟩
      · exact ⟨inFrame_discarding opened discarding, (dropFrame_discarding discarding).symm⟩
    subst left
    refine ⟨fun bs whole correct => ⟨fun b receiving => ?_, fun discarding => ?_⟩, fun bs whole wrong => ?_,
      fun bs bad => hostFrameAbort_badLength inside bad,
      fun bs part => ⟨hostFrameAbort_part inside part, hostFrameTimeout_part inside part⟩⟩
    · exact hostFrameEnd_stored opened receiving whole ((hostCrcOk_iff bs).2 correct)
    · exact hostFrameEnd_overrun opened discarding whole ((hostCrcOk_iff bs).2 correct)
    · exact hostFrameEnd_badCrc inside whole (Bool.eq_false_iff.2 (mt (hostCrcOk_iff bs).1 wrong))

end Sys2Proof.Machine

/-! PROOFS. The report queue and the transmitter (R149 to R153, R156, R164, R165). -/

namespace Sys2Proof.Machine

/-! ## Levels in a queue (R150, R151) -/

section
variable {r : Report} {before after : List Report}

theorem dropOldest_first (first : ∀ x ∈ before, x.body.level ≠ r.body.level) :
    dropOldest r.body.level (before ++ r :: after) = before ++ after := by
  induction before with
  | nil => exact if_pos rfl
  | cons x before ih =>
    obtain ⟨other, first⟩ := List.forall_mem_cons.1 first
    rw [List.cons_append, dropOldest, if_neg other, ih first, List.cons_append]

theorem le_highestLevel {q : List Report} (h : r ∈ q) : r.body.level ≤ highestLevel q := by
  induction q with
  | nil => cases h
  | cons x q ih =>
    rcases List.mem_cons.1 h with rfl | h
    · exact le_max_left _ _
    · exact (ih h).trans (le_max_right _ _)

theorem highestLevel_le {q : List Report} {n : Nat} (h : ∀ x ∈ q, x.body.level ≤ n) : highestLevel q ≤ n := by
  induction q with
  | nil => exact Nat.zero_le n
  | cons x q ih =>
    obtain ⟨head, tail⟩ := List.forall_mem_cons.1 h
    exact max_le head (ih tail)

theorem lowestLevel_le {q : List Report} (h : r ∈ q) : lowestLevel q ≤ r.body.level := by
  induction q with
  | nil => cases h
  | cons x q ih =>
    rcases List.mem_cons.1 h with rfl | h
    · exact min_le_left _ _
    · exact (min_le_right _ _).trans (ih h)

theorem le_lowestLevel {q : List Report} {n : Nat} (top : n ≤ 3) (h : ∀ x ∈ q, n ≤ x.body.level) : n ≤ lowestLevel q := by
  induction q with
  | nil => exact top
  | cons x q ih =>
    obtain ⟨head, tail⟩ := List.forall_mem_cons.1 h
    exact le_min head (ih tail)

theorem mem_middle : r ∈ before ++ r :: after := List.mem_append_right _ List.mem_cons_self

/-- What holds of a report and of those before and after it holds of all. -/
theorem forall_mem_middle {p : Report → Prop} (hb : ∀ x ∈ before, p x) (hr : p r) (ha : ∀ x ∈ after, p x) :
    ∀ x ∈ before ++ r :: after, p x := List.forall_mem_append.2 ⟨hb, List.forall_mem_cons.2 ⟨hr, ha⟩⟩

section
variable (below : ∀ x ∈ before, x.body.level < r.body.level) (notAbove : ∀ x ∈ after, x.body.level ≤ r.body.level)
include below notAbove

theorem highestLevel_middle : highestLevel (before ++ r :: after) = r.body.level :=
  le_antisymm (highestLevel_le (forall_mem_middle (fun x hx => (below x hx).le) le_rfl notAbove)) (le_highestLevel mem_middle)

theorem headReport_middle : headReport (before ++ r :: after) = some r := by
  refine List.find?_eq_some_iff_append.2 ⟨by simp [highestLevel_middle below notAbove], before, after, rfl, fun x hx => ?_⟩
  simp [highestLevel_middle below notAbove, (below x hx).ne]

end

theorem lowestLevel_middle (top : r.body.level ≤ 3) (above : ∀ x ∈ before, r.body.level < x.body.level)
    (notBelow : ∀ x ∈ after, r.body.level ≤ x.body.level) : lowestLevel (before ++ r :: after) = r.body.level :=
  le_antisymm (lowestLevel_le mem_middle) (le_lowestLevel top (forall_mem_middle (fun x hx => (above x hx).le) le_rfl notBelow))

end

/-! ## The five rows of the report queue table (R151) -/

section
variable {b : ReportBody} {s : State}

theorem submit_belowThreshold (h : b.level < s.policy.reportThreshold) : submit b s = s := if_pos h

section
variable (passes : s.policy.reportThreshold ≤ b.level)
include passes

theorem submit_queued (room : s.host.queue.length < 64) :
    submit b s = { s with host := { s.host with queue := s.host.queue ++ [⟨b, s.clock.count⟩] } } := by
  rw [submit, if_neg passes.not_gt, if_pos (show s.host.queue.length < Config.reportPlaces from room)]

variable (full : 64 ≤ s.host.queue.length)
include full

theorem submit_full : submit b s =
    if b.level = 3 ∧ lowestLevel s.host.queue < 3 then { s with host := { s.host with
      queue := dropOldest (lowestLevel s.host.queue) s.host.queue ++ [⟨b, s.clock.count⟩], lostMark := true } }
    else { s with host := { s.host with lostMark := true } } := by
  rw [submit, if_neg passes.not_gt, if_neg (show ¬s.host.queue.length < Config.reportPlaces from full.not_gt)]

theorem submit_dropped (h : b.level < 3 ∨ ∀ x ∈ s.host.queue, x.body.level = 3) :
    submit b s = { s with host := { s.host with lostMark := true } } := by
  rw [submit_full passes full, if_neg]
  rintro ⟨highest, lower⟩
  rcases h with low | all
  · omega
  · exact absurd (le_lowestLevel le_rfl fun x hx => (all x hx).ge) lower.not_ge

/-- The oldest report of the lowest level makes room for one of level 3. -/
theorem submit_displaces (highest : b.level = 3) {before after : List Report} {old : Report}
    (queue : s.host.queue = before ++ old :: after) (lower : old.body.level < 3)
    (above : ∀ x ∈ before, old.body.level < x.body.level) (notBelow : ∀ x ∈ after, old.body.level ≤ x.body.level) :
    submit b s =
      { s with host := { s.host with queue := before ++ after ++ [⟨b, s.clock.count⟩], lostMark := true } } := by
  have lowest : lowestLevel s.host.queue = old.body.level := by rw [queue, lowestLevel_middle lower.le above notBelow]
  have rest : dropOldest old.body.level s.host.queue = before ++ after := by
    rw [queue, dropOldest_first fun x hx => (above x hx).ne']
  rw [submit_full passes full, lowest, if_pos ⟨highest, lower⟩, rest]

end

end

/-- Settles O10: one lemma for each row of the table; the levels kind by kind, of which TRANSFER_ENDED alone has two. -/
theorem reportQueueDiscipline : Obligations.ReportQueueDiscipline := by
  refine ⟨fun b s => ⟨submit_belowThreshold, submit_queued, fun passes full low => submit_dropped passes full (.inl low),
    fun passes full highest => ⟨fun before_ old after_ queue lower above notBelow => ?displaced, fun all => ?dropped⟩⟩,
    fun b => ?levels⟩
  case displaced => exact submit_displaces passes full highest queue lower above notBelow
  case dropped => exact submit_dropped passes full (.inr all)
  case levels =>
    cases b with
    | transferEnded r => by_cases done : r.condition = .done <;> simp [ReportBody.level, done]
    | _ => simp [ReportBody.level]

/-! ## The choice of what is sent (R150, R153) -/

section
variable {s : State}

theorem exec_transmitStart (idle : s.host.transmitter = none) (released : s.resetPin = false)
    (running : s.host.processor ≠ .awaitReset true) : exec .transmitStart s = .next (modHost beginSending s) :=
  if_pos ⟨idle, released, running⟩

theorem beginSending_reply {h : HostLink} {r : Reply} (reply : h.replyPlace = some r) :
    beginSending h = { h with transmitter := some (.reply r), replyPlace := none } := by
  simp only [beginSending, reply]

theorem beginSending_report {h : HostLink} (noReply : h.replyPlace = none) {before after : List Report} {r : Report}
    (queue : h.queue = before ++ r :: after) (below : ∀ x ∈ before, x.body.level < r.body.level)
    (notAbove : ∀ x ∈ after, x.body.level ≤ r.body.level) :
    beginSending h = { h with
      transmitter := some (.report r h.lostMark), queue := before ++ after, lostMark := false,
      rxOpen := h.rxOpen || decide (r.body.code = 1) } := by
  have head : headReport h.queue = some r := by rw [queue, headReport_middle below notAbove]
  have rest : dropOldest (highestLevel h.queue) h.queue = before ++ after := by
    rw [queue, highestLevel_middle below notAbove, dropOldest_first fun x hx => (below x hx).ne]
  simp only [beginSending, noReply, head, beginReport, rest]
  rfl

theorem beginSending_nothing {h : HostLink} (noReply : h.replyPlace = none) (empty : h.queue = []) : beginSending h = h := by
  simp only [beginSending, noReply, empty, headReport, List.find?_nil]

end

/-- Settles O8: the choice by beginSending, with the head of the queue by headReport_middle; the bytes are those of hostFrame,
OutFrame.bytes and ReportBody.bytes. -/
theorem transmitterChoosesReplyThenReport : Obligations.TransmitterChoosesReplyThenReport := by
  refine ⟨fun s idle released running => ?choice, ?frame, fun _ => rfl, fun _ _ => rfl, fun _ _ => ⟨rfl, rfl⟩,
    fun _ _ _ => ⟨rfl, rfl⟩, fun _ _ => ⟨rfl, rfl⟩, ?slack, fun _ => ⟨rfl, rfl⟩, fun _ _ _ _ => ⟨rfl, rfl, rfl, rfl⟩,
    fun _ _ _ => ⟨rfl, rfl⟩, fun _ _ _ _ => ⟨rfl, rfl⟩, fun _ _ _ _ => ⟨rfl, rfl⟩, fun _ _ => ⟨rfl, rfl⟩,
    fun _ _ _ _ => ⟨rfl, rfl⟩, fun _ _ _ _ _ => ⟨rfl, rfl⟩, fun _ _ => ⟨rfl, rfl⟩, fun _ _ _ _ => ⟨rfl, rfl⟩,
    fun _ _ _ => ⟨rfl, rfl⟩, fun _ _ _ _ _ _ _ => ⟨rfl, rfl⟩, ?codes⟩
  case choice =>
    rw [exec_transmitStart idle released running, modHost]
    refine ⟨fun r reply => ?_, fun before_ r after_ noReply queue below notAbove => ?_, fun noReply empty => ?_⟩
    · rw [beginSending_reply reply]
    · rw [beginSending_report noReply queue below notAbove]
    · rw [beginSending_nothing noReply empty]
  case frame =>
    rintro kind tag body covered rfl
    rfl
  case slack =>
    rintro r c head tail rfl rfl
    exact ⟨rfl, rfl, rfl, rfl, rfl, rfl⟩
  case codes => decide

/-! ## The end of what is sent, and RESET_PART (R149, R150, R156) -/

section
variable {s : State} {f : OutFrame}

theorem isResetReply_iff (f : OutFrame) : isResetReply f = true ↔ ∃ tag b, f = .reply ⟨0x82, tag, .ok, b⟩ := by
  cases f with
  | report r lost => simp [isResetReply]
  | reply r =>
    obtain ⟨kind, tag, st, fields⟩ := r
    simp [isResetReply]

theorem exec_transmitEnd (sending : s.host.transmitter = some f) : exec .transmitEnd s = .next (modHost (endSending f) s) := by
  simp only [exec, execTransmitEnd, sending]

theorem endSending_releases {h : HostLink} (waiting : h.processor = .awaitReset false) (own : isResetReply f = true) :
    endSending f h = { h with transmitter := none, processor := .awaitReset true } := by
  rw [endSending, if_pos ⟨waiting, own⟩]

theorem endSending_keeps {h : HostLink} (other : h.processor ≠ .awaitReset false ∨ isResetReply f = false) :
    endSending f h = { h with transmitter := none } := by
  rw [endSending, if_neg fun ⟨waiting, own⟩ => other.elim (· waiting) (by simp [own])]

theorem exec_resetPart {tag : Byte} (hq : Held s tag .resetPart) : exec .resetPart s = .next { s with host := { s.host with
    replyPlace := some ⟨0x82, tag, .ok, []⟩, processor := .awaitReset false } } := by
  simp only [exec, execResetPart, show s.host.processor = _ from hq]
  rfl

theorem requestTake_awaitReset {sent : Bool} (waiting : s.host.processor = .awaitReset sent) : exec .requestTake s = .next s := by
  simp only [exec, execRequestTake, waiting]

theorem transmitStart_resetDue (due : s.host.processor = .awaitReset true) : exec .transmitStart s = .next s :=
  if_neg fun ⟨_, _, running⟩ => running due

end

/-- Settles O9: whether a frame that ends is RESET_PART's own reply is isResetReply_iff. -/
theorem transmitEndAndResetPart : Obligations.TransmitEndAndResetPart := by
  refine ⟨fun s tag => exec_resetPart, fun s f sending => ?_, fun s ⟨_, waiting⟩ => requestTake_awaitReset waiting,
    fun s => transmitStart_resetDue⟩
  rw [exec_transmitEnd sending, modHost]
  refine ⟨fun busy => ?_, fun waiting own => ?_, fun waiting other => ?_⟩
  · rw [endSending_keeps (.inl busy)]
  · rw [endSending_releases waiting ((isResetReply_iff f).2 own)]
  · rw [endSending_keeps (.inr (Bool.eq_false_iff.2 fun own => ?_))]
    obtain ⟨tag, b, same⟩ := (isResetReply_iff f).1 own
    exact other tag b same

end Sys2Proof.Machine

/-! PROOFS. The request processor: REQUEST_TAKE, the completion of requests, and refusals (R146, R148, R149, R154). -/

namespace Sys2Proof.Machine

/-! ## The checks of kind and length (R148, R154, R165) -/

theorem bodyLengths_iff (k lo hi : Nat) : bodyLengths k = some (lo, hi) ↔ (k, lo, hi) ∈ [(0x01, 0, 0), (0x02, 0, 0), (0x03, 16, 16),
    (0x04, 5, 1100), (0x05, 1, 1), (0x06, 1, 1), (0x07, 2, 2), (0x08, 0, 0), (0x09, 0, 0), (0x0A, 7, 7), (0x0B, 6, 6), (0x0C, 2, 2),
    (0x0D, 2, 2), (0x0E, 4, 4), (0x0F, 3, 3), (0x10, 5, 5), (0x11, 30, 30), (0x12, 1, 1), (0x13, 1, 1), (0x14, 1, 1), (0x15, 13, 13),
    (0x16, 4, 4), (0x17, 0, 0), (0x18, 0, 0)] := by
  constructor
  · intro h
    unfold bodyLengths at h
    split at h <;> cases h <;> decide
  · intro h
    fin_cases h <;> rfl

/-- A kind with body lengths is one whose fields are read. -/
theorem parseBody_of_bodyLengths {k lo hi : Nat} (known : bodyLengths k = some (lo, hi)) (b : List Byte) :
    ∃ q, parseBody k b = some q := by
  rw [bodyLengths_iff] at known
  fin_cases known <;> exact ⟨_, rfl⟩

section
variable {r : RawRequest}

theorem judge_unknown (unknown : bodyLengths r.kind.toNat = none) : judge r = .rejected 0xFF .badKind := by
  simp only [judge, unknown]

variable {lo hi : Nat} (known : bodyLengths r.kind.toNat = some (lo, hi))
include known

theorem judge_badLength (bad : ¬(lo ≤ r.body.length ∧ r.body.length ≤ hi)) :
    judge r = .rejected (r.kind.toNat + 0x80) .badLength := by
  obtain ⟨q, parsed⟩ := parseBody_of_bodyLengths known r.body
  simp only [judge, known, parsed, if_neg bad]

theorem judge_fits (fits : lo ≤ r.body.length ∧ r.body.length ≤ hi) : parseBody r.kind.toNat r.body = some (judge r) := by
  obtain ⟨q, parsed⟩ := parseBody_of_bodyLengths known r.body
  simp only [judge, known, parsed, if_pos fits]

end

/-! ## REQUEST_TAKE (R146, R148, R149) -/

section
variable {s : State}

theorem requestTake_takes {b : Fin 2} {rest : List (Fin 2)} {r : RawRequest} (idle : s.host.processor = .idle)
    (noReply : s.host.replyPlace = none) (order : s.host.order = b :: rest) (waiting : s.host.buffers.get b = .waiting r) :
    exec .requestTake s = .next (modHost (takeRequest b rest r) s) := by
  simp only [exec, execRequestTake, idle, noReply, order, waiting]

theorem requestTake_completes {tag : Byte} {k : Nat} {st : Status} (hq : Held s tag (.rejected k st)) :
    exec .requestTake s = .next (replied k tag st [] s) := by
  simp only [exec, execRequestTake, show s.host.processor = _ from hq]
  rfl

/-- A processor that is BUSY with another request, or a full reply place. -/
theorem requestTake_waits (other : ∀ tag k st, s.host.processor ≠ .busy tag (.rejected k st))
    (h : s.host.processor ≠ .idle ∨ s.host.replyPlace ≠ none) : exec .requestTake s = .next s := by
  simp only [exec, execRequestTake]
  split
  · exact (other _ _ _ ‹_›).elim
  · rename_i idle
    split
    · rename_i noReply _
      exact absurd noReply (h.resolve_left (not_not.2 idle))
    · rfl
  · rfl

end

/-- Settles O7: the tables by bodyLengths_iff and parseBody, what is taken by the judge lemmas. -/
theorem requestTakeJudgesKindAndLength : Obligations.RequestTakeJudgesKindAndLength := by
  refine ⟨bodyLengths_iff, fun b => ?fields, fun s b rest r taken idle noReply order waiting htaken => ?takes,
    fun s tag k st => requestTake_completes, fun s => requestTake_waits⟩
  case fields =>
    exact ⟨rfl, rfl, rfl, rfl, rfl, rfl, rfl, rfl, rfl, rfl, rfl, rfl, rfl, rfl, rfl, rfl, rfl, rfl, rfl, rfl, rfl, rfl, rfl, rfl⟩
  case takes =>
    have judged : exec .requestTake s = .next (taken (judge r)) := by
      rw [requestTake_takes idle noReply order waiting, htaken]
      rfl
    rw [judged]
    refine ⟨fun unknown => ?_, fun lo hi known bad => ?_, fun lo hi known fits => ⟨_, judge_fits known fits, rfl⟩⟩
    · rw [judge_unknown unknown]
    · rw [judge_badLength known bad]

/-! ## Commands whose request the processor does not hold (R148) -/

theorem laneFieldsBad_iff (enable mask : Nat) (f : RawLaneFields) : laneFieldsBad enable mask f = true ↔
    2 ≤ enable ∨ (mask.testBit 10 = true ∧ 4 ≤ f.crossing) ∨ (mask.testBit 15 = true ∧ 3 ≤ f.presence) := by
  simp only [laneFieldsBad, Bool.or_eq_true, Bool.and_eq_true, decide_eq_true_eq, or_assoc]
  rfl

section
variable {s : State}

/-- A PUBLISH that names another kind of object than the command's is not the command's. -/
theorem publish_notOwn {c : Instr} {k : ObjKind}
    (own : (c, k) ∈ [(Instr.publishFareImage, ObjKind.fareImage), (.publishDelta, .delta), (.publishBase, .base)])
    (h : ∀ tag stream kind, Held s tag (.publish stream kind) →
      ∃ k' : ObjKind, (stream = k'.stream.code ∧ kind = k'.code) ∧ k' ≠ k) : exec c s = .next s := by
  have names {tag : Byte} {stream kind : Nat} (hq : s.host.processor = .busy tag (.publish stream kind)) :
      ∃ k', pairedKind stream kind = some k' ∧ k' ≠ k := by
    obtain ⟨k', paired, otherKind⟩ := h tag stream kind hq
    exact ⟨k', (pairedKind_eq_some ..).2 paired, otherKind⟩
  simp only [List.mem_cons, Prod.mk.injEq, List.not_mem_nil, or_false] at own
  rcases own with ⟨rfl, rfl⟩ | ⟨rfl, rfl⟩ | ⟨rfl, rfl⟩
  · simp only [exec, execPublishFareImage]
    split
    · obtain ⟨k', paired, otherKind⟩ := names ‹_›
      simp only [paired]
    · rfl
  · simp only [exec, execPublishDelta]
    split
    · obtain ⟨k', paired, otherKind⟩ := names ‹_›
      simp only [paired]
    · rfl
  · simp only [exec, execPublishBase]
    split
    · obtain ⟨k', paired, otherKind⟩ := names ‹_›
      simp only [paired]
    · rfl

/-- A SET_LANE whose fields are not refused and that does not switch on a lane which is OFF. -/
theorem switchLaneOn_notOwn (h : ∀ tag lane enable mask f, Held s tag (.setLane lane enable mask f) →
    ∃ i : LaneIx, lane = i.val ∧ laneFieldsBad enable mask f = false ∧ ¬(enable = 1 ∧ (s.lane i).state = .off)) :
    exec .switchLaneOn s = .next s := by
  simp only [exec, execSwitchLaneOn]
  split
  · obtain ⟨i, rfl, good, other⟩ := h _ _ _ _ _ ‹_›
    simp only [laneOf_val, good, Bool.false_eq_true, if_false, if_neg other]
  · rfl

/-- A SET_LANE whose fields are not refused and that does not switch its lane OFF. -/
theorem switchLaneOff_notOwn (h : ∀ tag lane enable mask f, Held s tag (.setLane lane enable mask f) →
    ∃ i : LaneIx, lane = i.val ∧ laneFieldsBad enable mask f = false ∧ enable ≠ 0) : exec .switchLaneOff s = .next s := by
  simp only [exec, execSwitchLaneOff]
  split
  · obtain ⟨i, rfl, good, other⟩ := h _ _ _ _ _ ‹_›
    simp only [laneOf_val, good, Bool.false_eq_true, if_false, if_neg other]
  · rfl

end

/-- Settles O12: a PUBLISH by publish_notOwn and a SET_LANE by the switchLane lemmas, as their fields decide whose they are; every other
command looks for its own request alone. -/
theorem requestsNeedTheProcessor : Obligations.RequestsNeedTheProcessor := by
  intro s c own badFields unpaired hbad hunpaired
  have otherKind (k : ObjKind) {stream kind : Nat} (h : ¬(unpaired stream kind ∨ (stream = k.stream.code ∧ kind = k.code))) :
      ∃ k', (stream = k'.stream.code ∧ kind = k'.code) ∧ k' ≠ k := by
    obtain ⟨paired, notOwn⟩ := not_or.1 h
    rw [hunpaired, not_forall] at paired
    obtain ⟨k', named⟩ := paired
    exact ⟨k', not_not.1 named, fun same => notOwn (same ▸ not_not.1 named)⟩
  have goodLane {lane enable mask : Nat} {f : RawLaneFields} (h : ¬badFields lane enable mask f) :
      ∃ i : LaneIx, lane = i.val ∧ laneFieldsBad enable mask f = false := by
    rw [hbad, not_or, ← laneFieldsBad_iff, Bool.not_eq_true] at h
    obtain ⟨below, good⟩ := h
    exact ⟨⟨lane, not_le.1 below⟩, rfl, good⟩
  refine fun mem => (?all : ∀ p : Instr × (Request → Prop), p ∈ _ →
    (∀ tag q, s.host.processor = .busy tag q → ¬p.2 q) → exec p.1 s = .next s) _ mem
  simp only [List.forall_mem_cons]
  refine ⟨?identify, ?resetPart, ?loadOpen, ?loadData, ?loadClose, ?discard, ?publishFareImage, ?publishDelta, ?publishBase, ?merge,
    ?listObjects, ?expectVehicle, ?setDeparture, ?departVehicle, ?readVehicle, ?readValidator, ?readRanking, ?clearFlags, ?setLane,
    ?switchLaneOn, ?switchLaneOff, ?readLane, ?resetLane, ?wakeLane, ?setPolicy, ?setTime, ?scanNow, ?readSlots, List.forall_mem_nil _⟩
  case publishFareImage =>
    exact fun other => publish_notOwn (by simp) fun tag _ _ hq => otherKind .fareImage fun mine => other tag _ hq ⟨_, _, rfl, mine⟩
  case publishDelta =>
    exact fun other => publish_notOwn (by simp) fun tag _ _ hq => otherKind .delta fun mine => other tag _ hq ⟨_, _, rfl, mine⟩
  case publishBase =>
    exact fun other => publish_notOwn (by simp) fun tag _ _ hq => otherKind .base fun mine => other tag _ hq ⟨_, _, rfl, mine⟩
  case switchLaneOn =>
    refine fun other => switchLaneOn_notOwn fun tag lane enable mask f hq => ?_
    obtain ⟨i, rfl, good⟩ := goodLane fun bad => other tag _ hq ⟨_, _, _, _, rfl, .inl bad⟩
    refine ⟨i, rfl, good, fun ⟨on, off⟩ => other tag _ hq ⟨_, _, _, _, rfl, .inr ⟨on, fun j same => ?_⟩⟩⟩
    rwa [← Fin.ext same]
  case switchLaneOff =>
    refine fun other => switchLaneOff_notOwn fun tag lane enable mask f hq => ?_
    obtain ⟨i, rfl, good⟩ := goodLane fun bad => other tag _ hq ⟨_, _, _, _, rfl, .inl bad⟩
    exact ⟨i, rfl, good, fun switchesOff => other tag _ hq ⟨_, _, _, _, rfl, .inr switchesOff⟩⟩
  all_goals
    intro other
    simp only [exec, execIdentify, execResetPart, execLoadOpen, execLoadData, execLoadClose, execDiscard, execMerge, execListObjects,
      execExpectVehicle, execSetDeparture, execDepartVehicle, execReadVehicle, execReadValidator, execReadRanking, execClearFlags,
      execSetLane, execReadLane, execResetLane, execWakeLane, execSetPolicy, execSetTime, execScanNow, execReadSlots]
    split
    · exact (other _ _ ‹_› (by simp)).elim
    · rfl

end Sys2Proof.Machine

/-! PROOFS. A refused request changes nothing but the reply place and the processor (R148, R154). -/

namespace Sys2Proof.Machine

/-- A request has been carried out, with OK or CLAMPED in the reply place, or nothing but the reply place and the processor has changed. -/
inductive Completed (s t : State) : Prop where
  | carriedOut (r : Reply) (reply : t.host.replyPlace = some r) (status : r.status = .ok ∨ r.status = .clamped)
  | unchanged (same : t = { s with host := { s.host with replyPlace := t.host.replyPlace, processor := t.host.processor } })

/-- The next state that a meaning answers, if it answers one, is a request completed in one of these ways. -/
def Completes (s : State) (r : Result) : Prop := ∀ t, r = .next t → Completed s t

@[simp] theorem chooseAll_host (s : State) : (chooseAll s).host = s.host := by
  rw [(chosen_chooseAll s).rest]

section
variable {s t u : State} {code : Nat} {tag : Byte} {st : Status} {fields : List Byte}

theorem completes_next (h : Completed s t) : Completes s (.next t) := fun _ e => by cases e; exact h

theorem completes_fault {f : Fault} : Completes s (.fault f) := fun _ e => by cases e

theorem completes_stay : Completes s (.next s) := completes_next (.unchanged rfl)

theorem completes_refuse : Completes s (.next (refuse code tag st s)) := completes_next (.unchanged rfl)

theorem completes_answer (status : st = .ok ∨ st = .clamped) : Completes s (.next (answer code tag st fields u)) :=
  completes_next (.carriedOut _ rfl status)

theorem completes_ok : Completes s (.next (answer code tag .ok fields u)) := completes_answer (.inl rfl)

/-- The choice points that a command ends with leave its reply as it is. -/
theorem completes_chosen (status : st = .ok ∨ st = .clamped) : Completes s (.next (chooseAll (answer code tag st fields u))) :=
  completes_next (.carriedOut _ (by rw [chooseAll_host, answer_host]) status)

theorem completes_chosenOk : Completes s (.next (chooseAll (answer code tag .ok fields u))) := completes_chosen (.inl rfl)

/-- The status of a request whose fields may have been clamped (R154). -/
theorem clampedStatus (p : Prop) [Decidable p] :
    (if p then Status.ok else .clamped) = .ok ∨ (if p then Status.ok else .clamped) = .clamped := by
  split
  · exact .inl rfl
  · exact .inr rfl

end

section
variable {s : State}

/-! ## The host link, the content catalogue and the merge engine (08, 01, 02) -/

theorem completes_identify : Completes s (execIdentify s) := by
  unfold execIdentify
  split
  · exact completes_ok
  · exact completes_stay

theorem completes_resetPart : Completes s (execResetPart s) := by
  unfold execResetPart
  split
  · exact completes_next (.carriedOut _ rfl (.inl rfl))
  · exact completes_stay

theorem completes_loadOpen : Completes s (execLoadOpen s) := by
  unfold execLoadOpen loadOpen
  split
  · repeat' split
    · exact completes_refuse
    · exact completes_refuse
    · exact completes_refuse
    · exact completes_refuse
    · exact completes_refuse
    · exact completes_ok
    · exact completes_refuse
  · exact completes_stay

theorem completes_loadData : Completes s (execLoadData s) := by
  unfold execLoadData loadData
  split
  · repeat' split
    · exact completes_refuse
    · exact completes_refuse
    · exact completes_refuse
    · exact completes_refuse
    · exact completes_refuse
    · exact completes_fault
    · exact completes_ok
  · exact completes_stay

theorem completes_discard : Completes s (execDiscard s) := by
  unfold execDiscard
  split
  · split
    · exact completes_refuse
    · exact completes_ok
    · exact completes_ok
    · exact completes_ok
    · exact completes_refuse
    · exact completes_refuse
  · exact completes_stay

theorem completes_publishFareImage : Completes s (execPublishFareImage s) := by
  unfold execPublishFareImage
  split
  · repeat' split
    · exact completes_refuse
    · exact completes_refuse
    · exact completes_chosenOk
    · exact completes_stay
  · exact completes_stay

theorem completes_publishDelta : Completes s (execPublishDelta s) := by
  unfold execPublishDelta
  split
  · repeat' split
    · exact completes_refuse
    · exact completes_refuse
    · exact completes_refuse
    · exact completes_chosenOk
    · exact completes_refuse
    · exact completes_stay
  · exact completes_stay

theorem completes_publishBase : Completes s (execPublishBase s) := by
  unfold execPublishBase
  split
  · repeat' split
    · exact completes_refuse
    · exact completes_refuse
    · exact completes_chosenOk
    · exact completes_chosenOk
    · exact completes_stay
  · exact completes_stay

theorem completes_merge : Completes s (execMerge s) := by
  simp only [execMerge, startMerge]
  split
  · repeat' split
    · exact completes_refuse
    · exact completes_refuse
    · exact completes_refuse
    · exact completes_ok
    · exact completes_refuse
    · exact completes_refuse
  · exact completes_stay

theorem completes_listObjects : Completes s (execListObjects s) := by
  unfold execListObjects
  split
  · exact completes_ok
  · exact completes_stay

/-! ## The fleet requests (03) -/

theorem completes_expectVehicle : Completes s (execExpectVehicle s) := by
  unfold execExpectVehicle expectVehicle
  split
  · repeat' split
    · exact completes_refuse
    · exact completes_chosenOk
    · exact completes_refuse
    · exact completes_chosenOk
    · exact completes_refuse
  · exact completes_stay

theorem completes_setDeparture : Completes s (execSetDeparture s) := by
  unfold execSetDeparture
  split
  · repeat' split
    · exact completes_refuse
    · exact completes_ok
    · exact completes_refuse
  · exact completes_stay

theorem completes_departVehicle : Completes s (execDepartVehicle s) := by
  unfold execDepartVehicle
  split
  · repeat' split
    · exact completes_refuse
    · exact completes_chosenOk
    · exact completes_refuse
  · exact completes_stay

theorem completes_readVehicle : Completes s (execReadVehicle s) := by
  unfold execReadVehicle
  split
  · repeat' split
    · exact completes_refuse
    · exact completes_refuse
    · exact completes_ok
    · exact completes_refuse
  · exact completes_stay

theorem completes_readValidator : Completes s (execReadValidator s) := by
  unfold execReadValidator
  split
  · repeat' split
    · exact completes_refuse
    · exact completes_refuse
    · exact completes_refuse
    · exact completes_ok
  · exact completes_stay

theorem completes_readRanking : Completes s (execReadRanking s) := by
  unfold execReadRanking
  split
  · exact completes_answer (clampedStatus _)
  · exact completes_stay

theorem completes_clearFlags : Completes s (execClearFlags s) := by
  unfold execClearFlags clearNamed
  split
  · repeat' split
    · exact completes_refuse
    · exact completes_refuse
    · exact completes_ok
  · exact completes_stay

/-! ## The lane requests (07) -/

theorem completes_laneOn {tag : Byte} {i : LaneIx} {mask : Nat} {f : RawLaneFields} : Completes s (.next (laneOn tag i mask f s)) :=
  completes_chosen (clampedStatus _)

theorem completes_laneOffRequest {tag : Byte} {i : LaneIx} : Completes s (.next (laneOffRequest tag i s)) := completes_chosenOk

theorem completes_setLane : Completes s (execSetLane s) := by
  unfold execSetLane
  split
  · repeat' split
    · exact completes_refuse
    · exact completes_refuse
    · exact completes_laneOn
    · exact completes_chosen (clampedStatus _)
    · exact completes_refuse
    · exact completes_laneOffRequest
  · exact completes_stay

theorem completes_switchLaneOn : Completes s (execSwitchLaneOn s) := by
  unfold execSwitchLaneOn
  split
  · repeat' split
    · exact completes_refuse
    · exact completes_refuse
    · exact completes_laneOn
    · exact completes_stay
  · exact completes_stay

theorem completes_switchLaneOff : Completes s (execSwitchLaneOff s) := by
  unfold execSwitchLaneOff
  split
  · repeat' split
    · exact completes_refuse
    · exact completes_refuse
    · exact completes_refuse
    · exact completes_laneOffRequest
    · exact completes_stay
  · exact completes_stay

theorem completes_readLane : Completes s (execReadLane s) := by
  unfold execReadLane
  split
  · repeat' split
    · exact completes_refuse
    · exact completes_refuse
    · exact completes_ok
  · exact completes_stay

theorem completes_resetLane : Completes s (execResetLane s) := by
  unfold execResetLane
  split
  · repeat' split
    · exact completes_refuse
    · exact completes_refuse
    · exact completes_ok
    · exact completes_chosenOk
  · exact completes_stay

theorem completes_wakeLane : Completes s (execWakeLane s) := by
  unfold execWakeLane
  split
  · split
    · exact completes_refuse
    · dsimp only
      split
      · exact completes_refuse
      · exact completes_ok
      · exact completes_ok
      · exact completes_ok
      · exact completes_ok
  · exact completes_stay

/-! ## Policy, clock, scanner and slots (05, 04) -/

theorem completes_setPolicy : Completes s (execSetPolicy s) := by
  unfold execSetPolicy
  split
  · split
    · exact completes_refuse
    · exact completes_chosen (clampedStatus _)
  · exact completes_stay

theorem completes_setTime : Completes s (execSetTime s) := by
  unfold execSetTime
  split
  · exact completes_chosenOk
  · exact completes_stay

theorem completes_scanNow : Completes s (execScanNow s) := by
  unfold execScanNow
  split
  · split
    · exact completes_refuse
    · exact completes_ok
  · exact completes_stay

theorem completes_readSlots : Completes s (execReadSlots s) := by
  unfold execReadSlots
  split
  · exact completes_ok
  · exact completes_stay

end

/-- Settles O13: each request command is completed in one of the two ways, and a refusal is not carried out. -/
theorem refusedRequestChangesNothing : Obligations.RefusedRequestChangesNothing := by
  intro s t c tag q r _ mem next reply notOk notClamped
  have completed : Completes s (exec c s) := by
    clear next
    revert c
    simp only [List.forall_mem_cons]
    exact ⟨completes_identify, completes_resetPart, completes_loadOpen, completes_loadData, completes_discard,
      completes_publishFareImage, completes_publishDelta, completes_publishBase, completes_merge, completes_listObjects,
      completes_expectVehicle, completes_setDeparture, completes_departVehicle, completes_readVehicle, completes_readValidator,
      completes_readRanking, completes_clearFlags, completes_setLane, completes_switchLaneOn, completes_switchLaneOff,
      completes_readLane, completes_resetLane, completes_wakeLane, completes_setPolicy, completes_setTime, completes_scanNow,
      completes_readSlots, List.forall_mem_nil _⟩
  cases completed t next with
  | unchanged same => exact same
  | carriedOut r' reply' status =>
    cases reply.symm.trans reply'
    exact absurd status (not_or.2 ⟨notOk, notClamped⟩)

end Sys2Proof.Machine

/-! PROOFS. SET_LANE: its fields, its refusals, and a lane switched on, switched OFF or written to (R136, R141, R142, R154, R160). -/

namespace Sys2Proof.Machine

/-! ## The fields (R154, R160) -/

/-- A segment size is taken as carried when it is in its range and a multiple of 16 (R154). -/
theorem segmentUnclamped_iff (mask n : Nat) :
    (!mask.testBit 7 || decide (roundSegment (clampTo 64 448 n) = n)) = true ↔
      (mask.testBit 7 = true → 64 ≤ n ∧ n ≤ 448) ∧ (mask.testBit 7 = true → n % 16 = 0) := by
  have taken : roundSegment (clampTo 64 448 n) = n ↔ (64 ≤ n ∧ n ≤ 448) ∧ n % 16 = 0 := by
    unfold roundSegment clampTo
    split_ifs <;> omega
  rw [Bool.or_eq_true, decide_eq_true_iff, taken]
  cases mask.testBit 7 <;> simp

theorem noneClamped_iff (mask : Nat) (f : RawLaneFields) {taken : Nat → Nat → Nat → Nat → Prop}
    (htaken : ∀ bit lo hi n, taken bit lo hi n ↔ (mask.testBit bit = true → lo ≤ n ∧ n ≤ hi)) :
    noneClamped mask f = true ↔ taken 0 2 960 f.divisor ∧ taken 1 50 1000 f.roundLength ∧ taken 2 0 100 f.announceWindow ∧
      taken 3 1 64 f.preamble ∧ taken 4 5 1000 f.replyTimeout ∧ taken 5 0 500 f.turnaround ∧ taken 6 1 12 f.slotsPerLane ∧
      taken 7 64 448 f.segmentSize ∧ (mask.testBit 7 = true → f.segmentSize % 16 = 0) ∧ taken 8 0 3600 f.guardMargin ∧
      taken 9 0 3600 f.atRiskLimit ∧ taken 11 100 1000 f.initialEfficiency ∧ taken 12 0 60000 f.quietDelay ∧
      taken 13 1 600 f.quietMaximum ∧ taken 14 1 20 f.burstRounds := by
  simp only [noneClamped, Bool.and_eq_true, and_assoc, unclamped_iff, segmentUnclamped_iff, htaken]

/-- Fields within the codes of the modes and of the enable field are not refused (R160). -/
theorem laneFieldsBad_of_good {enable mask : Nat} {f : RawLaneFields} (he : enable < 2)
    (crossing : mask.testBit 10 = true → f.crossing < 4) (presence : mask.testBit 15 = true → f.presence < 3) :
    laneFieldsBad enable mask f = false := by
  rw [← Bool.not_eq_true, laneFieldsBad_iff]
  rintro (h | ⟨h, code⟩ | ⟨h, code⟩)
  · omega
  · exact absurd (crossing h) (Nat.not_lt.2 code)
  · exact absurd (presence h) (Nat.not_lt.2 code)

/-! ## What a SET_LANE request is (R160, log entry 26) -/

section
variable {s : State} {tag : Byte} {mask : Nat} {f : RawLaneFields} {c : Instr}

theorem setLane_badField {lane enable : Nat} (hq : Held s tag (.setLane lane enable mask f))
    (bad : 6 ≤ lane ∨ laneFieldsBad enable mask f = true) (hc : c ∈ [Instr.setLane, .switchLaneOn, .switchLaneOff]) :
    exec c s = .next (replied 0x91 tag .badField [] s) := by
  have refused : ∀ i, laneOf lane = some i → laneFieldsBad enable mask f = true := fun i hi => by
    refine bad.resolve_left fun beyond => ?_
    rw [laneOf_of_le beyond] at hi
    cases hi
  simp only [List.mem_cons, List.not_mem_nil, or_false] at hc
  rcases hc with rfl | rfl | rfl <;>
    simp only [exec, execSetLane, execSwitchLaneOn, execSwitchLaneOff, show s.host.processor = _ from hq] <;>
    cases hl : laneOf lane with
    | none => rfl
    | some i => simp only [refused i hl, if_true]; rfl

variable {i : LaneIx}

theorem setLane_refusedOff (hq : Held s tag (.setLane i.val 0 mask f)) (good : laneFieldsBad 0 mask f = false)
    (off : (s.lane i).state = .off) (hc : c ∈ [Instr.setLane, .switchLaneOff]) :
    exec c s = .next (replied 0x91 tag .laneOff [] s) := by
  simp only [List.mem_cons, List.not_mem_nil, or_false] at hc
  rcases hc with rfl | rfl <;>
    simp only [exec, execSetLane, execSwitchLaneOff, show s.host.processor = _ from hq, laneOf_val, good, off] <;> rfl

theorem setLane_switchesOff (hq : Held s tag (.setLane i.val 0 mask f)) (good : laneFieldsBad 0 mask f = false)
    (on : (s.lane i).state ≠ .off) (hc : c ∈ [Instr.setLane, .switchLaneOff]) :
    exec c s = .next (laneOffRequest tag i s) := by
  simp only [List.mem_cons, List.not_mem_nil, or_false] at hc
  rcases hc with rfl | rfl <;>
    simp only [exec, execSetLane, execSwitchLaneOff, show s.host.processor = _ from hq, laneOf_val, good, if_neg on] <;> rfl

theorem setLane_switchesOn (hq : Held s tag (.setLane i.val 1 mask f)) (good : laneFieldsBad 1 mask f = false)
    (off : (s.lane i).state = .off) (hc : c ∈ [Instr.setLane, .switchLaneOn]) :
    exec c s = .next (laneOn tag i mask f s) := by
  simp only [List.mem_cons, List.not_mem_nil, or_false] at hc
  rcases hc with rfl | rfl <;>
    simp only [exec, execSetLane, execSwitchLaneOn, show s.host.processor = _ from hq, laneOf_val, good, off] <;> rfl

theorem setLane_writes (hq : Held s tag (.setLane i.val 1 mask f)) (good : laneFieldsBad 1 mask f = false)
    (on : (s.lane i).state ≠ .off) :
    exec .setLane s = .next (chooseAll (laneReply tag i (noneClamped mask f) (writeLane i mask f s))) := by
  simp only [exec, execSetLane, show s.host.processor = _ from hq, laneOf_val, good, if_neg on]
  rfl

end

/-- The reply carries the state and the parameters that its lane has by then. -/
theorem laneReply_eq {t : State} {i : LaneIx} {shown : LaneState} {p : LaneParams} (state : (t.lane i).state = shown)
    (params : (t.lane i).params = p) (tag : Byte) (asCarried : Bool) :
    laneReply tag i asCarried t =
      replied 0x91 tag (if asCarried = true then .ok else .clamped) (leBytes 1 shown.code ++ paramBytes p) t := by
  subst state params
  rfl

/-! ## Lanes while slots end and vehicles depart (R106, R129) -/

/-- The lanes are as they were but for what a choice point may change, and their timers and marks. -/
def LanesChosen (s t : State) : Prop := ∀ j, LaneChosen (s.lane j) (t.lane j)

theorem LanesChosen.refl (s : State) : LanesChosen s s := fun _ => LaneChosen.refl _

theorem LanesChosen.trans {s t u : State} (h : LanesChosen s t) (k : LanesChosen t u) : LanesChosen s u :=
  fun j => (h j).trans (k j)

theorem LanesChosen.of_eq {s t : State} (h : t.lanes = s.lanes) : LanesChosen s t := fun j => by
  unfold State.lane
  rw [h]
  exact LaneChosen.refl _

theorem laneChosen_of_untimed {a b : Lane} (h : b.untimed = a.untimed) : LaneChosen a b := by
  have there : LaneChosen a a.untimed := laneChosen_free ..
  have back : LaneChosen b.untimed b := laneChosen_free ..
  exact there.trans (h ▸ back)

theorem laneChosen_orphan (k : SlotIx) (l : Lane) : LaneChosen l (orphan k l) := by
  unfold orphan
  split
  · exact LaneChosen.refl l
  · split
    · split
      · exact laneChosen_free ..
      · exact LaneChosen.refl l
    all_goals exact LaneChosen.refl l

theorem lanesChosen_endSlot (k : SlotIx) (c : EndCond) (u : Bool) (s : State) : LanesChosen s (endSlot k c u s) := by
  cases h : (s.slot k).binding with
  | none => rw [endSlot_free k c u s h]; exact LanesChosen.refl s
  | some b =>
    have ended := endSlot_effect k c u s b h
    intro j
    by_cases hj : j = b.lane
    · subst hj
      exact (laneChosen_orphan k _).trans (laneChosen_of_untimed ended.lane)
    · rw [ended.laneOther j hj]
      exact LaneChosen.refl _

theorem lanesChosen_endSlotsWhere (which : Binding → Bool) (c : EndCond) (s : State) :
    LanesChosen s (endSlotsWhere which c s) := by
  rw [endSlotsWhere_eq]
  generalize allSlots = l
  induction l generalizing s with
  | nil => exact LanesChosen.refl s
  | cons k l ih =>
    refine LanesChosen.trans ?_ (ih (endIf which c s k))
    unfold endIf
    split
    · exact LanesChosen.refl s
    · split
      · exact lanesChosen_endSlot k c false s
      · exact LanesChosen.refl s

theorem rosterWork_missDeparture (number : Nat) (behind : List (Nat × Nat × Nat)) (s : State) :
    RosterWork s (missDeparture number behind s) := by
  unfold missDeparture
  split
  · exact RosterWork.refl s
  · exact (RosterWork.foldl _ (fun t p => rosterWork_modValidator p.1 setMissed t) behind s).trans (rosterWork_submit ..)

theorem lanesChosen_depart (v : Nat) (cause : DepartCause) (s : State) : LanesChosen s (depart v cause s) := by
  cases hr : look s.vehicles v with
  | none =>
    rw [depart, hr]
    exact LanesChosen.refl s
  | some r =>
    obtain ⟨n, hn⟩ := (sameVehicles_endVehicleSlots v .vehicleGone s v).1 r hr
    have ended : LanesChosen s (endVehicleSlots v .vehicleGone s) := lanesChosen_endSlotsWhere _ _ s
    rw [depart_of_look cause hr rfl hn]
    generalize endVehicleSlots v .vehicleGone s = w at ended
    exact ended.trans (.of_eq ((rosterWork_submit _ _).trans (rosterWork_missDeparture _ _ _)).lanes)

/-! ## The departures of a lane's vehicles (R141, step 3) -/

/-- The turn of one vehicle: it departs when it is on the lane and not DEPARTED. -/
def departOn (i : LaneIx) (s : State) (v : Nat) : State :=
  match look s.vehicles v with
  | none => s
  | some r => if r.lane = i ∧ r.state ≠ .departed then depart v .laneOff s else s

theorem departLane_eq (i : LaneIx) (s : State) : departLane i s = (keys s.vehicles).foldl (departOn i) s := rfl

/-- What departures of vehicles of a lane leave as it is: the lanes, the FREE slots, and the records of the vehicles, but for those of the
lane that have departed. -/
structure LaneDepartures (i : LaneIx) (s t : State) : Prop where
  lanes : LanesChosen s t
  free : ∀ k, (s.slot k).binding = none → t.slot k = s.slot k
  vehicles : ∀ v r, look s.vehicles v = some r → look t.vehicles v = some r ∨
    r.lane = i ∧ ∃ n, look t.vehicles v = some { r with boundSlots := n, state := .departed }

theorem LaneDepartures.refl (i : LaneIx) (s : State) : LaneDepartures i s s :=
  ⟨LanesChosen.refl s, fun _ _ => rfl, fun _ _ h => .inl h⟩

theorem LaneDepartures.trans {i : LaneIx} {s t u : State} (h : LaneDepartures i s t) (k : LaneDepartures i t u) :
    LaneDepartures i s u where
  lanes := h.lanes.trans k.lanes
  free j hj := by
    have same := h.free j hj
    exact (k.free j (by rw [same, hj])).trans same
  vehicles v r hr := by
    obtain stays | ⟨on, n, departed⟩ := h.vehicles v r hr
    · exact k.vehicles v r stays
    · obtain still | ⟨_, m, again⟩ := k.vehicles v _ departed
      · exact .inr ⟨on, n, still⟩
      · exact .inr ⟨on, m, again⟩

/-- Slots that are FREE stay as they are when the slots of a vehicle end. -/
theorem endVehicleSlots_free {k : SlotIx} {s : State} (h : (s.slot k).binding = none) (v : Nat) (c : EndCond) :
    (endVehicleSlots v c s).slot k = s.slot k :=
  (endVehicleSlots_ended v c s k).2 fun b hb => by rw [h] at hb; cases hb

theorem laneDepartures_departOn (i : LaneIx) (s : State) (v : Nat) : LaneDepartures i s (departOn i s v) := by
  unfold departOn
  split
  · exact LaneDepartures.refl i s
  · rename_i r hr
    split
    · rename_i on
      obtain ⟨slots, _, departed, others⟩ := depart_effect .laneOff hr
      refine ⟨lanesChosen_depart v .laneOff s, fun k free => (slots k).trans (endVehicleSlots_free free ..), fun w q hq => ?_⟩
      by_cases hw : w = v
      · subst hw
        rw [hr] at hq
        cases hq
        exact .inr ⟨on.1, departed⟩
      · exact .inl ((others w hw).trans hq)
    · exact LaneDepartures.refl i s

theorem laneDepartures_foldl (i : LaneIx) (l : List Nat) (s : State) : LaneDepartures i s (l.foldl (departOn i) s) := by
  induction l generalizing s with
  | nil => exact LaneDepartures.refl i s
  | cons v l ih => exact (laneDepartures_departOn i s v).trans (ih _)

/-- A vehicle of the lane is DEPARTED after its turn. -/
theorem departOn_departs {i : LaneIx} {s : State} {v : Nat} {r : Vehicle} (hr : look s.vehicles v = some r) (on : r.lane = i) :
    ∃ n, look (departOn i s v).vehicles v = some { r with boundSlots := n, state := .departed } := by
  simp only [departOn, hr]
  split
  · exact (depart_effect .laneOff hr).2.2.1
  · rename_i departed
    have gone : r.state = .departed := not_not.1 fun h => departed ⟨on, h⟩
    exact ⟨r.boundSlots, by rw [hr, ← gone]⟩

/-- Each vehicle of the lane that has a turn is DEPARTED at the end. -/
theorem departOn_foldl_departs {i : LaneIx} {v : Nat} {r : Vehicle} (on : r.lane = i) {l : List Nat} (hv : v ∈ l) {s : State}
    (hr : look s.vehicles v = some r) :
    ∃ n, look (l.foldl (departOn i) s).vehicles v = some { r with boundSlots := n, state := .departed } := by
  induction l generalizing s r with
  | nil => cases hv
  | cons w l ih =>
    by_cases hw : v = w
    · subst hw
      obtain ⟨n, hn⟩ := departOn_departs hr on
      obtain stays | ⟨_, m, again⟩ := (laneDepartures_foldl i l (departOn i s v)).vehicles v _ hn
      · exact ⟨n, stays⟩
      · exact ⟨m, again⟩
    · have later := (List.mem_cons.1 hv).resolve_left hw
      obtain stays | ⟨_, n, departed⟩ := (laneDepartures_departOn i s w).vehicles v r hr
      · exact ih on later stays
      · obtain ⟨m, hm⟩ := ih (r := { r with boundSlots := n, state := .departed }) on later departed
        exact ⟨m, hm⟩

theorem laneDepartures_departLane (i : LaneIx) (s : State) : LaneDepartures i s (departLane i s) := by
  rw [departLane_eq]
  exact laneDepartures_foldl i _ s

theorem departLane_departs {i : LaneIx} {s : State} {v : Nat} {r : Vehicle} (hr : look s.vehicles v = some r) (on : r.lane = i) :
    ∃ n, look (departLane i s).vehicles v = some { r with boundSlots := n, state := .departed } :=
  departLane_eq i s ▸ departOn_foldl_departs on (mem_keys_of_look hr) hr

/-! ## A lane switched OFF (R141) -/

/-- What the switch OFF of a lane does: its record returns to defaults, its slots have ended with LANE_OFF, its vehicles are DEPARTED, and
the other lanes and vehicles keep what is theirs. -/
structure SwitchedOff (i : LaneIx) (s u : State) : Prop where
  lane : u.lane i = Lane.off (s.lane i).lineAsserted
  others : ∀ j, j ≠ i → LaneChosen (s.lane j) (u.lane j)
  slots : ∀ k b, (s.slot k).binding = some b → b.lane = i → u.slot k = ⟨none, .laneOff, false⟩
  departed : ∀ v r, look s.vehicles v = some r → r.lane = i →
    ∃ n, look u.vehicles v = some { r with boundSlots := n, state := .departed }
  stayed : ∀ v r, look s.vehicles v = some r → r.lane ≠ i → ∃ n, look u.vehicles v = some { r with boundSlots := n }
  inside : Inside s { u with lanes := s.lanes }

/-- The state as the lane's transaction is dropped, the first step of R141. -/
def transactionDropped (i : LaneIx) (s : State) : State := modLane i (fun l => { l with transaction := none }) s

theorem switchOff_eq (i : LaneIx) (s : State) : switchOff i s =
    modLane i (fun l => Lane.off l.lineAsserted) (departLane i (endLaneSlots i .laneOff (transactionDropped i s))) := rfl

theorem lanesChosen_transactionDropped (i : LaneIx) (s : State) : LanesChosen s (transactionDropped i s) :=
  (chosen_modLane i _ s (laneChosen_free ..)).lanes

/-- Until the record returns to defaults, the lane itself keeps all but what a choice point may change. -/
theorem lanesChosen_vehiclesGone (i : LaneIx) (s : State) :
    LanesChosen s (departLane i (endLaneSlots i .laneOff (transactionDropped i s))) :=
  ((lanesChosen_transactionDropped i s).trans (lanesChosen_endSlotsWhere _ _ _)).trans (laneDepartures_departLane i _).lanes

/-- Work inside the part that begins with a change of a lane, seen without the lanes. -/
theorem Inside.withoutLanes {i : LaneIx} {f : Lane → Lane} {s t : State} (h : Inside (modLane i f s) t) :
    Inside s { t with lanes := s.lanes } where
  content := h.content
  policy := h.policy
  clock := h.clock
  now := h.now
  scanner := h.scanner
  resetPin := h.resetPin
  pending := h.pending
  link := h.link
  queue := h.queue
  lanes := id
  on := fun _ on => on
  blocks := h.blocks
  roster := h.roster

theorem switchedOff_switchOff (i : LaneIx) (s : State) : SwitchedOff i s (switchOff i s) := by
  have ended : SlotsEnded (fun b => (b.lane == i) = true) .laneOff (transactionDropped i s)
      (endLaneSlots i .laneOff (transactionDropped i s)) := slotsEnded_endSlotsWhere _ _ _
  have counted : SameVehicles (transactionDropped i s) (endLaneSlots i .laneOff (transactionDropped i s)) :=
    (endSlotsWhere_effect ..).vehicles
  have worked := (inside_endLaneSlots i .laneOff (transactionDropped i s)).trans (inside_departLane i _)
  have kept := lanesChosen_vehiclesGone i s
  rw [switchOff_eq]
  generalize endLaneSlots i .laneOff (transactionDropped i s) = w at ended counted worked kept
  have gone := laneDepartures_departLane i w
  have inside : Inside s { departLane i w with lanes := s.lanes } := worked.withoutLanes
  refine ⟨?lane, fun j hj => ?others, fun k b hb on => ?slots, fun v r hr on => ?departed, fun v r hr other => ?stayed, inside⟩
  case lane =>
    rw [modLane_lane_same, (kept i).lineAsserted]
  case others =>
    rw [modLane_lane_other _ _ _ _ hj]
    exact kept j
  case slots =>
    have free : w.slot k = ⟨none, .laneOff, false⟩ := (ended k).1 b hb (beq_iff_eq.2 on)
    rw [modLane_slot, gone.free k (by rw [free]), free]
  case departed =>
    obtain ⟨n, hn⟩ := (counted v).1 r hr
    rw [modLane_vehicles]
    obtain ⟨m, hm⟩ := departLane_departs hn on
    exact ⟨m, hm⟩
  case stayed =>
    obtain ⟨n, hn⟩ := (counted v).1 r hr
    rw [modLane_vehicles]
    obtain stays | ⟨on, _⟩ := gone.vehicles v _ hn
    · exact ⟨n, stays⟩
    · exact absurd on other

/-- The steps of R141, each from the state that the step before it leaves. -/
theorem switchOff_of_steps {i : LaneIx} {s ended gone u : State}
    (hended : ended = endLaneSlots i .laneOff { s with lanes := s.lanes.set i { s.lane i with transaction := none } })
    (hgone : gone = departLane i ended)
    (hu : u = { gone with lanes := gone.lanes.set i (Lane.off (s.lane i).lineAsserted) }) : u = switchOff i s := by
  have dropped : ended = endLaneSlots i .laneOff (transactionDropped i s) := hended
  have line : (gone.lane i).lineAsserted = (s.lane i).lineAsserted := by
    rw [hgone, dropped]
    exact (lanesChosen_vehiclesGone i s i).lineAsserted
  rw [hu, switchOff_eq, ← dropped, ← hgone, ← line]
  rfl

/-! ## A lane switched on (R142) -/

theorem Lane.switchedOn_eq (p : LaneParams) (line : Bool) : Lane.switchedOn p line = { Lane.off line with
    state := .starting, params := p, efficiency := p.initialEfficiency, rate := 921600 / p.divisor, inLength := p.roundLength,
    inWindow := p.announceWindow, arrival := decide (p.presence = .edgeLevel) && line } := by
  rw [Lane.switchedOn, beq_eq_decide]
  rfl

theorem switchOn_eq (i : LaneIx) (mask : Nat) (f : RawLaneFields) (s : State) {p : LaneParams}
    (hp : p = writtenParams mask f LaneParams.defaults) : switchOn i mask f s = { s with
      dispatchDue := true,
      scanner := { s.scanner with run := s.scanner.run.map (fun r => { r with inputs := r.inputs.set i none }) },
      lanes := s.lanes.set i { Lane.off (s.lane i).lineAsserted with
        state := .starting, params := p, efficiency := p.initialEfficiency, rate := 921600 / p.divisor,
        inLength := p.roundLength, inWindow := p.announceWindow,
        arrival := decide (p.presence = .edgeLevel) && (s.lane i).lineAsserted,
        deadline := s.now + ceilDiv (p.preamble * 10000000) (921600 / p.divisor) } } := by
  subst hp
  rw [switchOn, enterStarting, modLane_modLane]
  simp only [Lane.switchedOn_eq]
  rfl

/-- What the reply shows of a lane that has been switched on. -/
theorem switchOn_lane (i : LaneIx) (mask : Nat) (f : RawLaneFields) (s : State) : ((switchOn i mask f s).lane i).state = .starting ∧
    ((switchOn i mask f s).lane i).params = writtenParams mask f LaneParams.defaults := by
  have same : (switchOn i mask f s).lane i = (enterStarting i
    (modLane i (fun l => Lane.switchedOn (writtenParams mask f LaneParams.defaults) l.lineAsserted) s)).lane i := rfl
  rw [same, enterStarting, modLane_lane_same, modLane_lane_same]
  exact ⟨rfl, rfl⟩

/-! ## A switched-on lane written to (R111, R136) -/

section
variable {s : State} {i : LaneIx}

theorem applyPresenceMode_same {old : PresenceMode} (h : (s.lane i).params.presence = old) : applyPresenceMode i old s = s :=
  if_pos h

variable {old : PresenceMode} (changed : (s.lane i).params.presence ≠ old)
include changed

theorem applyPresenceMode_none (mode : (s.lane i).params.presence = .none) : applyPresenceMode i old s = clearArrival i s := by
  rw [applyPresenceMode, if_neg changed, mode]

theorem applyPresenceMode_edge (mode : (s.lane i).params.presence = .edge) : applyPresenceMode i old s = retestIdle i s := by
  rw [applyPresenceMode, if_neg changed, mode]

/-- In EDGE_LEVEL mode the arrival flag follows the line (R136). -/
theorem applyPresenceMode_edgeLevel (mode : (s.lane i).params.presence = .edgeLevel) : applyPresenceMode i old s =
    if (s.lane i).lineAsserted = true then if (s.lane i).arrival = true then retestIdle i s else setArrival i s
    else clearArrival i s := by
  rw [applyPresenceMode, if_neg changed, mode]

end

/-- The lane's parameters written; a change of its slots makes a dispatch walk due (R86, R111). -/
def paramsWritten (i : LaneIx) (p : LaneParams) (s : State) : State :=
  modLane i (fun l => { l with params := p })
    { s with dispatchDue := s.dispatchDue || decide (p.slotsPerLane ≠ (s.lane i).params.slotsPerLane) }

theorem writeLane_eq (i : LaneIx) (mask : Nat) (f : RawLaneFields) (s : State) : writeLane i mask f s =
    applyPresenceMode i (s.lane i).params.presence (paramsWritten i (writtenParams mask f (s.lane i).params) s) := rfl

section
variable {s : State} {i : LaneIx} {p : LaneParams}

theorem lane_of_set (s : State) (ls : Vector Lane 6) (i : LaneIx) (l : Lane) : ({ s with lanes := ls.set i l } : State).lane i = l :=
  get_set_same ..

theorem paramsWritten_lane : (paramsWritten i p s).lane i = { s.lane i with params := p } := modLane_lane_same ..

theorem clearArrival_paramsWritten : clearArrival i (paramsWritten i p s) = retestIdle i { paramsWritten i p s with
    lanes := s.lanes.set i { s.lane i with params := p, arrival := false, windowByArrival := false } } := by
  rw [clearArrival, paramsWritten, modLane_modLane]
  rfl

theorem setArrival_paramsWritten_awake (awake : (s.lane i).state ≠ .quiet) :
    setArrival i (paramsWritten i p s) = retestIdle i { paramsWritten i p s with
      lanes := s.lanes.set i { s.lane i with params := p, arrival := true } } := by
  have awake : ((paramsWritten i p s).lane i).state ≠ .quiet := by rw [paramsWritten_lane]; exact awake
  rw [setArrival, if_neg awake, paramsWritten, modLane_modLane]
  rfl

/-- A QUIET lane leaves QUIET with a burst, and keeps the arrival flag in EDGE_LEVEL mode (R136, R137). -/
theorem setArrival_paramsWritten_quiet (quiet : (s.lane i).state = .quiet) (mode : p.presence = .edgeLevel) :
    setArrival i (paramsWritten i p s) = { paramsWritten i p s with
      lanes := s.lanes.set i { s.lane i with
        params := p, arrival := true, state := .starting, phase := .none, reception := none, spent := spentAfter (s.lane i) 0,
        powerSave := false, quietMaxEnd := none, leftQuiet := some s.now, quietTimer := .stopped, frameWake := false,
        burst := p.burstRounds, deadline := s.now + ceilDiv (p.preamble * 10000000) (s.lane i).rate } } := by
  have quiet : ((paramsWritten i p s).lane i).state = .quiet := by rw [paramsWritten_lane]; exact quiet
  have kept : decide (p.presence ≠ .edge) = true := by rw [mode]; rfl
  rw [setArrival, if_pos quiet, leaveQuiet_burst, paramsWritten, modLane_modLane, modLane_modLane]
  simp only [burstLane, kept, Bool.and_self]
  rfl

variable {tag : Byte} {mask : Nat} {f : RawLaneFields} (hq : Held s tag (.setLane i.val 1 mask f))
  (good : laneFieldsBad 1 mask f = false) (on : (s.lane i).state ≠ .off) (hp : p = writtenParams mask f (s.lane i).params)
include hq good on hp

/-- A SET_LANE carried out on a switched-on lane, by the state that the change of mode leaves. -/
theorem setLane_answers {t : State} {shown : LaneState} (ht : applyPresenceMode i (s.lane i).params.presence (paramsWritten i p s) = t)
    (state : (t.lane i).state = shown) (params : (t.lane i).params = p) :
    exec .setLane s = .next (chooseAll (replied 0x91 tag (if noneClamped mask f = true then .ok else .clamped)
      (leBytes 1 shown.code ++ paramBytes p) t)) := by
  rw [setLane_writes hq good on, writeLane_eq, ← hp, ht, laneReply_eq state params]

/-- A test of idleness changes neither the state nor the parameters that the reply carries. -/
theorem setLane_answers_retested {t : State}
    (ht : applyPresenceMode i (s.lane i).params.presence (paramsWritten i p s) = retestIdle i t)
    (state : (t.lane i).state = (s.lane i).state) (params : (t.lane i).params = p) :
    exec .setLane s = .next (chooseAll (replied 0x91 tag (if noneClamped mask f = true then .ok else .clamped)
      (leBytes 1 (s.lane i).state.code ++ paramBytes p) (retestIdle i t))) :=
  have untimed := retestIdle_lane_untimed i t
  setLane_answers hq good on hp ht ((congrArg Lane.state untimed).trans state) ((congrArg Lane.params untimed).trans params)

theorem setLane_retests
    (ht : applyPresenceMode i (s.lane i).params.presence (paramsWritten i p s) = retestIdle i (paramsWritten i p s)) :
    exec .setLane s = .next (chooseAll (replied 0x91 tag (if noneClamped mask f = true then .ok else .clamped)
      (leBytes 1 (s.lane i).state.code ++ paramBytes p) (retestIdle i (paramsWritten i p s)))) :=
  setLane_answers_retested hq good on hp ht (by rw [paramsWritten_lane]) (by rw [paramsWritten_lane])

theorem setLane_clears
    (ht : applyPresenceMode i (s.lane i).params.presence (paramsWritten i p s) = clearArrival i (paramsWritten i p s)) :
    exec .setLane s = .next (chooseAll (replied 0x91 tag (if noneClamped mask f = true then .ok else .clamped)
      (leBytes 1 (s.lane i).state.code ++ paramBytes p) (retestIdle i { paramsWritten i p s with
        lanes := s.lanes.set i { s.lane i with params := p, arrival := false, windowByArrival := false } }))) :=
  setLane_answers_retested hq good on hp (ht.trans clearArrival_paramsWritten) (by rw [lane_of_set]) (by rw [lane_of_set])

end

/-! ## The statement -/

/-- Settles O54: the refusals and the ways to carry it out by the setLane lemmas; what a lane switched OFF leaves is switchedOff_switchOff,
what the change of the presence mode does is applyPresenceMode, mode by mode. -/
theorem laneGating : Obligations.LaneGating := by
  refine ⟨fun mask f q => rfl, fun mask f taken => noneClamped_iff mask f, fun s tag lane enable mask f hq =>
    ⟨fun bad c => ?refused, ?lane⟩⟩
  case refused =>
    rw [← laneFieldsBad_iff] at bad
    exact setLane_badField hq bad
  case lane =>
    rintro i l st rfl rfl crossing presence rfl
    have good (he : enable < 2) : laneFieldsBad enable mask f = false := laneFieldsBad_of_good he crossing presence
    refine ⟨?offAlready, ?switchedOff, ?switchedOn, ?written⟩
    case offAlready =>
      rintro rfl off c hc
      exact setLane_refusedOff hq (good (by decide)) off hc
    case switchedOff =>
      rintro ended gone u rfl on hended hgone hu
      have vehiclesGone : gone = departLane i ended := hgone
      have switched : u = switchOff i s := switchOff_of_steps hended vehiclesGone hu
      rw [switched]
      obtain ⟨record, others, slots, departed, stayed, inside⟩ := switchedOff_switchOff i s
      refine ⟨fun c hc => ?_, record, others, slots, fun v r hr here => ?_, stayed, inside⟩
      · rw [setLane_switchesOff hq (good (by decide)) on hc, laneOffRequest,
          laneReply_eq (congrArg Lane.state record) (congrArg Lane.params record)]
        rfl
      · obtain ⟨n, hn⟩ := departed v r hr here
        exact ⟨_, hn, rfl, rfl, here, rfl⟩
    case switchedOn =>
      rintro p rfl off hp c hc
      obtain ⟨state, params⟩ := switchOn_lane i mask f s
      rw [setLane_switchesOn hq (good (by decide)) off hc, laneOn, laneReply_eq state (params.trans hp.symm), switchOn_eq i mask f s hp]
      rfl
    case written =>
      rintro p w cleared answered rfl on hp hw hcleared hanswered
      have written : w = paramsWritten i p s := hw
      subst written hcleared
      have good := good (by decide)
      have lane : (paramsWritten i p s).lane i = { s.lane i with params := p } := paramsWritten_lane
      simp only [hanswered]
      refine ⟨fun same => ?_, fun changed => ?_⟩
      · exact setLane_answers hq good on hp (applyPresenceMode_same (by rw [lane]; exact same)) (by rw [lane]) (by rw [lane])
      have changed : ((paramsWritten i p s).lane i).params.presence ≠ (s.lane i).params.presence := by rw [lane]; exact changed
      have mode : ((paramsWritten i p s).lane i).params.presence = p.presence := by rw [lane]
      refine ⟨fun unminded => ?_, fun edge => ?_, fun level => ?_⟩
      · exact setLane_clears hq good on hp (applyPresenceMode_none changed (mode.trans unminded))
      · exact setLane_retests hq good on hp (applyPresenceMode_edge changed (mode.trans edge))
      have flag := applyPresenceMode_edgeLevel changed (mode.trans level)
      simp only [lane] at flag
      have raised (high : (s.lane i).lineAsserted = true) (fresh : (s.lane i).arrival = false) :=
        flag.trans ((if_pos high).trans (if_neg (by rw [fresh]; decide)))
      refine ⟨fun low => ?_, fun high arrived => ?_, fun high fresh => ⟨fun awake => ?_, fun quiet => ?_⟩⟩
      · exact setLane_clears hq good on hp (flag.trans (if_neg (by rw [low]; decide)))
      · exact setLane_retests hq good on hp (flag.trans ((if_pos high).trans (if_pos arrived)))
      · exact setLane_answers_retested hq good on hp ((raised high fresh).trans (setArrival_paramsWritten_awake awake))
          (by rw [lane_of_set]) (by rw [lane_of_set])
      · exact setLane_answers hq good on hp ((raised high fresh).trans (setArrival_paramsWritten_quiet quiet level))
          (by rw [lane_of_set]) (by rw [lane_of_set])

end Sys2Proof.Machine

/-! PROOFS. IDENTIFY (R155). -/

namespace Sys2Proof.Machine

theorem identityFields_eq (s : State) : identityFields s =
    leBytes 2 640 ++ leBytes 1 1 ++ leBytes 2 4096 ++ leBytes 2 1024 ++ leBytes 1 48 ++ leBytes 2 256 ++ leBytes 2 1024 ++
      leBytes 1 12 ++ leBytes 1 6 ++ leBytes 1 64 ++ leBytes 4 (hostRate s.host.straps) ++ boolByte s.clock.unset := rfl

theorem exec_identify {s : State} {tag : Byte} (hq : Held s tag .identify) :
    exec .identify s = .next (answer 0x01 tag .ok (identityFields s) s) := by
  simp only [exec, execIdentify, show s.host.processor = _ from hq]

/-- Settles O11: the fields are those of R155; the rate and the time-unset mark alone are read from the state. -/
theorem identifyAnswersTheFixedFields : Obligations.IdentifyAnswersTheFixedFields := by
  intro s tag hq
  rw [exec_identify hq, identityFields_eq]
  rfl

end Sys2Proof.Machine

/-! PROOFS. Frames of relays (R112, R120, R121, R126, R133, R166 to R169). -/

namespace Sys2Proof.Machine

/-! ## The text of a frame (R120, R166, R167, R169) -/

theorem tooLongLaneFrame_iff (bs : List Byte) :
    tooLongLaneFrame bs = true ↔ bs.head? = some 0x5C ∧ bs.length = 9 ∧ 2297 < field bs 7 2 := by
  simp only [tooLongLaneFrame, Bool.and_eq_true, decide_eq_true_eq, and_assoc]

theorem relayMessage_announce {b : List Byte} {n : Nat} (items : n = field b 1 1) (whole : b.length = 2 + 9 * n) :
    relayMessage 0x02 b =
      some (.announce (decide (field b 0 1 ≠ 0)) ((List.range n).map (fun k => announceItem b (2 + 9 * k)))) := by
  subst items
  exact if_pos ⟨by omega, whole⟩

theorem relayMessage_verdict (c : Byte) : relayMessage 0x22 [c] = some (.verdict c.toNat) := rfl

/-- The kinds a relay sends, each with the body lengths it allows (R166, R167). -/
theorem relayMessage_ne_none (kind : Nat) (b : List Byte) : relayMessage kind b ≠ none ↔
    (kind = 0x02 ∧ 2 ≤ b.length ∧ b.length = 2 + 9 * field b 1 1) ∨
      (kind ∈ [0x03, 0x20, 0x21, 0x23, 0x24] ∧ b.length = 0) ∨ (kind = 0x22 ∧ b.length = 1) := by
  unfold relayMessage
  split
  case h_8 => simp_all
  all_goals simp [ite_eq_right_iff]

/-- The body of a frame, whose length is the one its length field gives. -/
theorem length_frameBody {bs : List Byte} {n : Nat} (whole : bs.length = n + 11) : ((bs.drop 9).take n).length = n := by
  rw [List.length_take, List.length_drop]
  omega

/-- Which kinds and lengths have a message, in the bytes of the whole frame. -/
theorem frameMessage_ne_none {bs : List Byte} (whole : bs.length = field bs 7 2 + 11) :
    relayMessage (field bs 1 1) ((bs.drop 9).take (field bs 7 2)) ≠ none ↔
      (field bs 1 1 = 0x02 ∧ 2 ≤ field bs 7 2 ∧ field bs 7 2 = 2 + 9 * field bs 10 1) ∨
        (field bs 1 1 ∈ [0x03, 0x20, 0x21, 0x23, 0x24] ∧ field bs 7 2 = 0) ∨ (field bs 1 1 = 0x22 ∧ field bs 7 2 = 1) := by
  rw [relayMessage_ne_none, length_frameBody whole]
  refine or_congr (and_congr_right fun _ => and_congr_right fun two => ?_) Iff.rfl
  rw [field_record two]

/-- A good frame passes the tests of R120, and its kind and length have a message. -/
theorem goodFrame_eq_some (i : LaneIx) (bs : List Byte) (f : RelayFrame) : goodFrame i bs = some f ↔
    (bs.head? = some 0x5C ∧ bs.length = field bs 7 2 + 11 ∧ field bs 2 1 = i.val ∧
      field bs (field bs 7 2 + 9) 2 = (crc16 ((bs.drop 1).take (field bs 7 2 + 8))).toNat) ∧
    ∃ m, relayMessage (field bs 1 1) ((bs.drop 9).take (field bs 7 2)) = some m ∧
      ⟨field bs 3 2, field bs 5 1, decide (field bs 6 1 % 2 = 1), m⟩ = f := by
  simp only [goodFrame, Option.ite_none_right_eq_some, Option.map_eq_some_iff]

theorem goodFrame_ne_none (i : LaneIx) (bs : List Byte) : goodFrame i bs ≠ none ↔
    bs.head? = some 0x5C ∧ bs.length = field bs 7 2 + 11 ∧ field bs 2 1 = i.val ∧
      field bs (field bs 7 2 + 9) 2 = (crc16 ((bs.drop 1).take (field bs 7 2 + 8))).toNat ∧
      ((field bs 1 1 = 0x02 ∧ 2 ≤ field bs 7 2 ∧ field bs 7 2 = 2 + 9 * field bs 10 1) ∨
        (field bs 1 1 ∈ [0x03, 0x20, 0x21, 0x23, 0x24] ∧ field bs 7 2 = 0) ∨ (field bs 1 1 = 0x22 ∧ field bs 7 2 = 1)) := by
  rw [Option.ne_none_iff_exists']
  constructor
  · rintro ⟨f, good⟩
    obtain ⟨⟨sync, whole, lane, crc⟩, m, message, -⟩ := (goodFrame_eq_some i bs f).1 good
    exact ⟨sync, whole, lane, crc, (frameMessage_ne_none whole).1 (Option.ne_none_iff_exists'.2 ⟨m, message⟩)⟩
  · rintro ⟨sync, whole, lane, crc, kind⟩
    obtain ⟨m, message⟩ := Option.ne_none_iff_exists'.1 ((frameMessage_ne_none whole).2 kind)
    exact ⟨_, (goodFrame_eq_some i bs _).2 ⟨⟨sync, whole, lane, crc⟩, m, message, rfl⟩⟩

theorem goodFrame_fields {i : LaneIx} {bs : List Byte} {f : RelayFrame} (good : goodFrame i bs = some f) :
    f.vehicle = field bs 3 2 ∧ f.position = field bs 5 1 ∧ f.seqBit = decide (field bs 6 1 % 2 = 1) ∧
      relayMessage (field bs 1 1) ((bs.drop 9).take (field bs 7 2)) = some f.message := by
  obtain ⟨-, m, message, rfl⟩ := (goodFrame_eq_some i bs f).1 good
  exact ⟨rfl, rfl, rfl, message⟩

/-! ## What a lane hears (R112, R120, R131, R132) -/

/-- What a lane hears in its window and service phase is not its own sending (R112, log entry 21). -/
theorem listening_iff (now : Time) (l : Lane) : listening now l = true ↔ l.state = .quiet ∨
    (l.state = .active ∧ (l.phase = .window ∨ l.phase = .service) ∧
      ∀ tr, l.transaction = some tr → tr.owner ≠ .answer ∧ tr.sendEnd ≤ now) := by
  unfold listening
  cases hs : l.state with
  | quiet => simp
  | active => cases ht : l.transaction <;> simp
  | off => simp
  | starting => simp
  | resetting => simp

/-- The end of a frame is heard by a lane that listens, or that left QUIET in this moment (R132, log entry 21). -/
theorem hearsFrame_iff (now : Time) (l : Lane) :
    hearsFrame now l = true ↔ listening now l = true ∨ (l.state = .starting ∧ l.leftQuiet = some now) := by
  simp [hearsFrame]

/-! ## The end of a frame (R112, R120, R126, R128, R140) -/

/-- A frame ends outside a transaction; a good one clears the fault mark (R128, R140). -/
def frameLoose (i : LaneIx) (at_ : Time) (ok : Bool) (n : Nat) (s : State) : State :=
  modLane i (fun l => { l with spent := spentAfter l n, reception := none, fault := if ok = true then false else l.fault })
    (advanceTo at_ s)

/-- A frame ends the transaction in flight; a good one clears the fault mark (R126, R140). -/
def frameEnded (i : LaneIx) (at_ : Time) (ok : Bool) (n : Nat) (s : State) : State :=
  modLane i (fun l => { l with
    spent := addSat32 l.spent (((l.transaction.map Transaction.requestBytes).getD 0) + n), reception := none,
    transaction := none, fault := if ok = true then false else l.fault }) (advanceTo at_ s)

section
variable {s : State} {i : LaneIx} {at_ : Time}

theorem garbledFrame_loose (ht : (s.lane i).transaction = none) (n : Nat) :
    garbledFrame i n (advanceTo at_ s) = frameLoose i at_ false n s := by
  rw [garbledFrame, advanceTo_lane, ht]
  rfl

theorem garbledFrame_ended {tr : Transaction} (ht : (s.lane i).transaction = some tr) (n : Nat) :
    garbledFrame i n (advanceTo at_ s) = handOutcome tr.owner .error (frameEnded i at_ false n s) := by
  rw [garbledFrame, advanceTo_lane, ht]
  simp only [failTransaction, endTransaction, frameEnded]
  congr 1
  apply modLane_congr
  simp [ht]

theorem goodFrameEnd_loose (f : RelayFrame) (ht : (s.lane i).transaction = none) (n : Nat) :
    goodFrameEnd i f n (advanceTo at_ s) = relayAct i f (frameRefresh f (frameLoose i at_ true n s)) := by
  rw [goodFrameEnd, advanceTo_lane, ht]
  simp [looseFrame, frameLoose]

theorem goodFrameEnd_ended (f : RelayFrame) {tr : Transaction} (ht : (s.lane i).transaction = some tr) (n : Nat) :
    goodFrameEnd i f n (advanceTo at_ s) = relayAct i f (handOutcome tr.owner (frameOutcome tr f)
      (verdictRefresh tr.owner (frameOutcome tr f) (frameRefresh f (frameEnded i at_ true n s)))) := by
  rw [goodFrameEnd, advanceTo_lane, ht]
  simp only [endTransaction, modLane_modLane, frameEnded]
  congr 4
  apply modLane_congr
  simp [ht]

/-! ## The commands of a lane frame -/

theorem exec_laneFrameStart (heard : listening (max s.now at_) (s.lane i) = true) (idle : (s.lane i).reception = none) :
    exec (.laneFrameStart i at_) s =
      .next (modLane i (fun l => { l with reception := some ⟨max s.now at_, 0, 0⟩ }) (advanceTo at_ s)) := if_pos ⟨heard, idle⟩

/-- No frame begins on a lane that does not listen, and none inside another. -/
theorem exec_laneFrameStart_unheard
    (unheard : listening (max s.now at_) (s.lane i) = false ∨ (s.lane i).reception ≠ none) :
    exec (.laneFrameStart i at_) s = .next s := by
  refine if_neg fun ⟨heard, idle⟩ => ?_
  obtain deaf | begun := unheard
  · exact absurd (deaf.symm.trans heard) Bool.false_ne_true
  · exact begun idle

/-- The three commands that end a frame as a garbled one of `n` bytes: by its length, by an idle line, by its length field. -/
def EndsGarbled (i : LaneIx) (at_ : Time) (c : Instr) (n : Nat) : Prop :=
  (∃ bs, c = .laneFrameReceived i bs at_ ∧ goodFrame i bs = none ∧ n = bs.length) ∨ c = .laneFrameIdleEnd i n at_ ∨
    (∃ bs, c = .laneFrameTooLong i bs at_ ∧ tooLongLaneFrame bs = true ∧ n = bs.length)

section
variable (heard : hearsFrame (max s.now at_) (s.lane i) = true)
include heard

theorem exec_endsGarbled {c : Instr} {n : Nat} (garbled : EndsGarbled i at_ c n) :
    exec c s = .next (chooseAll (garbledFrame i n (advanceTo at_ s))) := by
  obtain ⟨bs, rfl, bad, rfl⟩ | rfl | ⟨bs, rfl, long, rfl⟩ := garbled
  · simp only [exec, execLaneFrameReceived, advanceTo_now, if_pos heard, bad]
  · exact if_pos heard
  · exact if_pos ⟨heard, long⟩

theorem exec_laneFrameReceived_good {bs : List Byte} {f : RelayFrame} (good : goodFrame i bs = some f) :
    exec (.laneFrameReceived i bs at_) s = .next (chooseAll (goodFrameEnd i f bs.length (advanceTo at_ s))) := by
  simp only [exec, execLaneFrameReceived, advanceTo_now, if_pos heard, good]

end

/-- The end of a frame that the lane does not hear is lost. -/
theorem exec_frameEnd_unheard (deaf : hearsFrame (max s.now at_) (s.lane i) = false) (bs : List Byte) (n : Nat) :
    exec (.laneFrameReceived i bs at_) s = .next s ∧ exec (.laneFrameIdleEnd i n at_) s = .next s :=
  ⟨if_neg (Bool.eq_false_iff.1 deaf), if_neg (Bool.eq_false_iff.1 deaf)⟩

theorem exec_laneFrameTooLong_ignored {bs : List Byte}
    (ignored : hearsFrame (max s.now at_) (s.lane i) = false ∨ tooLongLaneFrame bs = false) :
    exec (.laneFrameTooLong i bs at_) s = .next s := by
  refine if_neg fun ⟨heard, long⟩ => ?_
  obtain deaf | short := ignored
  · exact absurd (deaf.symm.trans heard) Bool.false_ne_true
  · exact absurd (short.symm.trans long) Bool.false_ne_true

end

/-! ## The outcome of a reply (R40, R60, R91) -/

/-- The verdict codes that each fetch step takes (R91, R167). -/
theorem replyOutcome_verdict (c : Nat) :
    replyOutcome .fetchOpen (.verdict c) = (if c ∈ [1, 3, 4, 7] then .verdict c else .error) ∧
    replyOutcome .fetchSegment (.verdict c) = (if c ∈ [1, 2, 3, 4, 7] then .verdict c else .error) ∧
    replyOutcome .fetchClose (.verdict c) = (if c ∈ [3, 5, 6, 7] then .verdict c else .error) := by
  simp only [replyOutcome, List.mem_cons, List.not_mem_nil, or_false, and_self]

/-- A message that is no reply of the exchange is an error (R91). -/
theorem replyOutcome_other (m : RelayMessage) :
    (m ≠ .taken → m ≠ .full → replyOutcome .put m = .error) ∧ (m ≠ .ready → m ≠ .busy → replyOutcome .probe m = .error) ∧
    ((∀ c, m ≠ .verdict c) → ∀ x ∈ [Exchange.fetchOpen, .fetchSegment, .fetchClose], replyOutcome x m = .error) := by
  cases m <;> simp [replyOutcome]

/-- Nobody's validator is refreshed unless a verdict is handed to a slot. -/
theorem verdictRefresh_other {o : Owner} {x : SlotOutcome} (h : (∀ k countOnly, o ≠ .slot k countOnly) ∨ (∀ c, x ≠ .verdict c))
    (s : State) : verdictRefresh o x s = s := by
  unfold verdictRefresh
  split
  next k countOnly c =>
    obtain noSlot | noVerdict := h
    · exact absurd rfl (noSlot k countOnly)
    · exact absurd rfl (noVerdict c)
  next => rfl

theorem verdictRefresh_bound {s : State} {k : SlotIx} {b : Binding} {v : Validator} (hb : (s.slot k).binding = some b)
    (hv : look s.validators b.validator = some v) (countOnly : Bool) (c : Nat) : verdictRefresh (.slot k countOnly) (.verdict c) s =
      { s with validators := put s.validators b.validator { v with lastHeard := s.clock.count } } := by
  simp only [verdictRefresh, hb, modValidator_of_look hv]

theorem verdictRefresh_free {s : State} {k : SlotIx} (free : (s.slot k).binding = none) (countOnly : Bool) (x : SlotOutcome) :
    verdictRefresh (.slot k countOnly) x s = s := by
  cases x with
  | verdict c => simp only [verdictRefresh, free]
  | _ => rfl

/-! ## What a good frame does as itself (R43, R120, R121, R133) -/

section
variable (i : LaneIx) (f : RelayFrame)

/-- A reply only refreshes its vehicle. -/
theorem relayAct_reply (u : State)
    (reply : f.message = .taken ∨ f.message = .full ∨ (∃ c, f.message = .verdict c) ∨ f.message = .ready ∨ f.message = .busy) :
    relayAct i f u = u ∧ frameRefresh f u = refresh f.vehicle u := by
  obtain h | h | ⟨c, h⟩ | h | h := reply <;> (rw [relayAct, frameRefresh, h]; exact ⟨rfl, rfl⟩)

/-- The lane as a good INQUIRE or ANNOUNCE takes it out of QUIET (R113, R133). -/
def frameWoken (w : State) : State :=
  { w with lanes := w.lanes.set i { w.lane i with
    state := .starting, phase := .none, powerSave := false, quietMaxEnd := none, leftQuiet := none, quietTimer := .expired,
    frameWake := true, reception := none, spent := spentAfter (w.lane i) 0,
    deadline := w.now + ceilDiv ((w.lane i).params.preamble * 10000000) (w.lane i).rate } }

theorem leaveQuietByFrame_eq (w : State) : leaveQuietByFrame i w = frameWoken i w := by
  rw [leaveQuietByFrame, leaveQuiet_eq, modLane_modLane]
  rfl

theorem relayAct_announce {sleep : Bool} {items : List AnnounceItem} (h : f.message = .announce sleep items) (u : State) :
    relayAct i f u = if (u.lane i).state = .quiet then frameWoken i (announce i f.vehicle sleep items u)
      else announce i f.vehicle sleep items u := by
  simp only [relayAct, h, leaveQuietByFrame_eq]

theorem relayAct_inquire (h : f.message = .inquire) (u : State) :
    relayAct i f u = if (u.lane i).state = .quiet then frameWoken i (inquire i f u) else inquire i f u := by
  simp only [relayAct, h, leaveQuietByFrame_eq]

/-- An INQUIRE that cannot be answered, or is queued already, is discarded (R121). -/
theorem inquire_discarded {u : State}
    (h : f.vehicle = 0 ∨ 65535 ≤ f.vehicle ∨ 4 < f.position ∨ 4 ≤ (u.lane i).answers.length ∨
      (∃ a ∈ (u.lane i).answers, a.vehicle = f.vehicle ∧ a.position = f.position)) : inquire i f u = u := by
  refine if_neg ?_
  rintro ⟨number, position, room, new⟩
  rw [vehicleNumberOk_iff] at number
  change _ < 4 at room
  obtain zero | high | beyond | full | ⟨a, queued, same⟩ := h
  · omega
  · omega
  · omega
  · omega
  · exact absurd (List.any_eq_false.1 new a queued) (by simpa using same)

theorem inquire_queued {u : State} (low : 1 ≤ f.vehicle) (high : f.vehicle < 65535) (position : f.position ≤ 4)
    (room : (u.lane i).answers.length < 4)
    (new : ∀ a ∈ (u.lane i).answers, ¬(a.vehicle = f.vehicle ∧ a.position = f.position)) :
    inquire i f u = retestIdle i { u with lanes := u.lanes.set i { u.lane i with
      answers := (u.lane i).answers ++ [⟨f.vehicle, f.position, f.seqBit⟩] } } :=
  if_pos ⟨vehicleNumberOk_of_range low high, position, room, List.any_eq_false.2 fun a queued => by simpa using new a queued⟩

/-- What the two clauses of R121 say of an INQUIRE fixes what it does, since one of them applies. -/
theorem inquire_unique {u act : State}
    (discarded : (f.vehicle = 0 ∨ 65535 ≤ f.vehicle ∨ 4 < f.position ∨ 4 ≤ (u.lane i).answers.length ∨
      (∃ a ∈ (u.lane i).answers, a.vehicle = f.vehicle ∧ a.position = f.position)) → act = u)
    (queued : 1 ≤ f.vehicle → f.vehicle < 65535 → f.position ≤ 4 → (u.lane i).answers.length < 4 →
      (∀ a ∈ (u.lane i).answers, ¬(a.vehicle = f.vehicle ∧ a.position = f.position)) →
      act = retestIdle i { u with lanes := u.lanes.set i { u.lane i with
        answers := (u.lane i).answers ++ [⟨f.vehicle, f.position, f.seqBit⟩] } }) : act = inquire i f u := by
  by_cases turned : f.vehicle = 0 ∨ 65535 ≤ f.vehicle ∨ 4 < f.position ∨ 4 ≤ (u.lane i).answers.length ∨
      (∃ a ∈ (u.lane i).answers, a.vehicle = f.vehicle ∧ a.position = f.position)
  · rw [discarded turned, inquire_discarded i f turned]
  · simp only [not_or, not_le, not_lt, not_exists, not_and] at turned
    obtain ⟨nonzero, high, position, room, new⟩ := turned
    have new' (a) (ha : a ∈ (u.lane i).answers) : ¬(a.vehicle = f.vehicle ∧ a.position = f.position) :=
      fun ⟨vehicle, same⟩ => new a ha vehicle same
    have low : 1 ≤ f.vehicle := Nat.one_le_iff_ne_zero.2 nonzero
    rw [queued low high position room new', inquire_queued i f low high position room new']

end

/-- Settles O50: the text by goodFrame_eq_some, the commands by exec_endsGarbled and exec_laneFrameReceived_good with what the end of a
frame leaves, the acts by relayAct_announce and relayAct_inquire, where inquire_unique picks the clause of R121. -/
theorem laneFrames : Obligations.LaneFrames := by
  refine ⟨tooLongLaneFrame_iff, fun i bs => ⟨goodFrame_ne_none i bs, fun f => goodFrame_fields⟩,
    ⟨rfl, rfl, rfl, rfl, rfl, relayMessage_verdict, fun b n => relayMessage_announce⟩, listening_iff, ?commands,
    ⟨rfl, rfl, rfl, rfl, replyOutcome_verdict, replyOutcome_other⟩, fun s o x => ⟨fun h => verdictRefresh_other h s, ?bound, ?free⟩,
    relayAct_reply, ?acts⟩
  case commands =>
    intro s i l now at_ hears loose ended hl hnow hhears hloose hended
    subst hl hnow
    rw [← hearsFrame_iff, Bool.coe_iff_coe] at hhears
    subst hhears
    obtain rfl : loose = fun ok n => frameLoose i at_ ok n s := funext₂ hloose
    obtain rfl : ended = fun ok n => frameEnded i at_ ok n s := funext₂ hended
    refine ⟨exec_laneFrameStart, exec_laneFrameStart_unheard, fun c n heard garbled => ?_, fun bs f heard good => ?_,
      fun bs n => ⟨fun deaf => exec_frameEnd_unheard deaf bs n, exec_laneFrameTooLong_ignored⟩⟩
    · rw [exec_endsGarbled heard garbled]
      exact ⟨fun ht => by rw [garbledFrame_loose ht], fun tr ht => by rw [garbledFrame_ended ht]⟩
    · rw [exec_laneFrameReceived_good heard good]
      refine ⟨fun ht => by rw [goodFrameEnd_loose f ht], ?_⟩
      rintro tr x ht rfl
      rw [goodFrameEnd_ended f ht]
      rfl
  case bound =>
    rintro k countOnly c b v rfl rfl hb hv
    exact verdictRefresh_bound hb hv countOnly c
  case free =>
    rintro k countOnly rfl free
    exact verdictRefresh_free free countOnly x
  case acts =>
    intro i f u act woken hwoken
    obtain rfl : woken = frameWoken i := funext hwoken
    constructor
    · rintro sleep items h rfl
      refine ⟨by rw [frameRefresh, h]; rfl, fun awake => ?_, fun quiet => ?_⟩
      · rw [relayAct_announce i f h, if_neg awake]
      · rw [relayAct_announce i f h, if_pos quiet]
    · intro h discarded queued
      obtain rfl := inquire_unique i f discarded queued
      refine ⟨by rw [frameRefresh, h]; rfl, fun awake => ?_, fun quiet => ?_⟩
      · rw [relayAct_inquire i f h, if_neg awake]
      · rw [relayAct_inquire i f h, if_pos quiet]

end Sys2Proof.Machine

/-! PROOFS. One step: the front command of the queue, or an idle millisecond. -/

namespace Sys2Proof.Machine

/-- A waiting command is taken off the queue before it acts (log entry 1). -/
theorem step_of_pending_cons {s : State} {c : Instr} {rest : List Instr} (front : s.pending = c :: rest) :
    step s = exec c { s with pending := rest } := by
  simp only [step, front]

/-- With no command waiting only the time goes on (log entry 2). -/
theorem step_of_pending_nil {s : State} (empty : s.pending = []) : step s = .next { s with now := s.now + 1000 } := by
  simp only [step, empty, State.idled]

/-- Settles O1: the two shapes of the queue, each by its equation of step. -/
theorem stepRunsFrontCommand : Obligations.StepRunsFrontCommand :=
  ⟨fun _ _ _ front => step_of_pending_cons front, fun _ empty => step_of_pending_nil empty⟩

end Sys2Proof.Machine
